-- ==== Sys2Proof/Word.lean ====
section
/-! DEFINITION. The two word types of the engine (10_state.md R20, R21; 00_scope.md R8) and the operand width. -/

namespace Sys2Proof

/-- An 8-bit value: a byte of memory, a child register, a byte of an instruction. -/
abbrev Byte := BitVec 8

/-- A 16-bit value: a register, an offset, a segment value. -/
abbrev Word := BitVec 16

/-- The operand width (30_encoding.md R96): `w = 0` is `byte`, `w = 1` is `word`. -/
inductive Width where
  | byte
  | word
deriving DecidableEq, Repr

/-- `W` of 00_scope.md R8. -/
def Width.bits : Width → Nat
  | .byte => 8
  | .word => 16

/-- `w + 1`: how many bytes an operand of this width has. -/
def Width.bytes : Width → Nat
  | .byte => 1
  | .word => 2

/-- The width a width bit selects. -/
def Width.ofBit (b : Bool) : Width := if b then .word else .byte

end Sys2Proof
end

