-- ==== Sys2Proof/Machine/Tables.lean ====
section
/-! DEFINITION. The decode tables (30_encoding.md R117) and their reference contents `T_REF` (R120 to R128). -/

namespace Sys2Proof

/-- The twenty decode tables, by the identities of 30_encoding.md R117: the eight addressing tables in two banks (`Disp`,
used for `mod` 1 and 2, and `Zero`, used for `mod` 0), seven tables indexed by an opcode or result byte, the four
conditional-jump tables and FLAGS_BITFIELDS. -/
structure Tables where
  reg1Disp : Vector Byte 256
  reg2Disp : Vector Byte 256
  multDisp : Vector Byte 256
  segDisp : Vector Byte 256
  reg1Zero : Vector Byte 256
  reg2Zero : Vector Byte 256
  multZero : Vector Byte 256
  segZero : Vector Byte 256
  xlatOpcode : Vector Byte 256
  xlatSubfunction : Vector Byte 256
  stdFlags : Vector Byte 256
  parityFlag : Vector Byte 256
  baseInstSize : Vector Byte 256
  iWSize : Vector Byte 256
  iModSize : Vector Byte 256
  condA : Vector Byte 8
  condB : Vector Byte 8
  condC : Vector Byte 8
  condD : Vector Byte 8
  flagsBitfields : Vector Byte 10
deriving DecidableEq, Repr

/-- The entry of a 256-entry table at a byte index. -/
def lookup (t : Vector Byte 256) (i : Byte) : Byte := t[i.toNat]

/-- The entry of an 8-entry table at a condition number. -/
def lookup8 (t : Vector Byte 8) (i : BitVec 3) : Byte := t[i.toNat]

/-- Sixteen zero entries. -/
def zeroRow : List Byte := [0, 0, 0, 0, 0, 0, 0, 0, 0, 0, 0, 0, 0, 0, 0, 0]

theorem zeroRow_length : zeroRow.length = 16 := rfl

/-- An addressing table of `T_REF`: eight entries used, entries 8 to 255 zero (R128). -/
def rmTable (row : List Byte) (h : row.length = 8) : Vector Byte 256 :=
  ⟨⟨row ++ [0, 0, 0, 0, 0, 0, 0, 0] ++ zeroRow ++ zeroRow ++ zeroRow ++ zeroRow ++ zeroRow ++ zeroRow ++ zeroRow ++ zeroRow
    ++ zeroRow ++ zeroRow ++ zeroRow ++ zeroRow ++ zeroRow ++ zeroRow ++ zeroRow⟩, by simp [h, zeroRow_length]⟩

/-- `XLAT_OPCODE` of `T_REF` (R121). -/
def xlatOpcodeRows : List Byte :=
   [9, 9, 9, 9, 7, 7, 25, 26, 9, 9, 9, 9, 7, 7, 25, 255] ++
   [9, 9, 9, 9, 7, 7, 25, 26, 9, 9, 9, 9, 7, 7, 25, 26] ++
   [9, 9, 9, 9, 7, 7, 27, 28, 9, 9, 9, 9, 7, 7, 27, 28] ++
   [9, 9, 9, 9, 7, 7, 27, 29, 9, 9, 9, 9, 7, 7, 27, 29] ++
   [2, 2, 2, 2, 2, 2, 2, 2, 2, 2, 2, 2, 2, 2, 2, 2] ++
   [3, 3, 3, 3, 3, 3, 3, 3, 4, 4, 4, 4, 4, 4, 4, 4] ++
   [255, 255, 255, 255, 255, 255, 255, 255, 255, 255, 255, 255, 255, 255, 255, 255] ++
   [0, 0, 0, 0, 0, 0, 0, 0, 0, 0, 0, 0, 0, 0, 0, 0] ++
   [8, 8, 8, 8, 15, 15, 24, 24, 9, 9, 9, 9, 10, 10, 10, 10] ++
   [16, 16, 16, 16, 16, 16, 16, 16, 30, 31, 32, 255, 33, 34, 35, 36] ++
   [11, 11, 11, 11, 17, 17, 18, 18, 47, 47, 17, 17, 17, 17, 18, 18] ++
   [1, 1, 1, 1, 1, 1, 1, 1, 1, 1, 1, 1, 1, 1, 1, 1] ++
   [255, 255, 19, 19, 37, 37, 20, 20, 255, 255, 19, 19, 38, 39, 40, 19] ++
   [12, 12, 12, 12, 41, 42, 255, 44, 255, 255, 255, 255, 255, 255, 255, 255] ++
   [13, 13, 13, 13, 21, 21, 22, 22, 14, 14, 14, 14, 21, 21, 22, 22] ++
   [255, 255, 23, 23, 49, 45, 6, 6, 46, 46, 46, 46, 46, 46, 5, 5]

theorem xlatOpcodeRows_length : xlatOpcodeRows.length = 256 := by decide +kernel

/-- `XLAT_SUBFUNCTION` of `T_REF` (R121). -/
def xlatSubfunctionRows : List Byte :=
   [0, 0, 0, 0, 0, 0, 8, 8, 1, 1, 1, 1, 1, 1, 9, 0] ++
   [2, 2, 2, 2, 2, 2, 10, 10, 3, 3, 3, 3, 3, 3, 11, 11] ++
   [4, 4, 4, 4, 4, 4, 8, 0, 5, 5, 5, 5, 5, 5, 9, 1] ++
   [6, 6, 6, 6, 6, 6, 10, 0, 7, 7, 7, 7, 7, 7, 11, 1] ++
   [0, 0, 0, 0, 0, 0, 0, 0, 1, 1, 1, 1, 1, 1, 1, 1] ++
   [0, 0, 0, 0, 0, 0, 0, 0, 0, 0, 0, 0, 0, 0, 0, 0] ++
   [0, 0, 0, 0, 0, 0, 0, 0, 0, 0, 0, 0, 0, 0, 0, 0] ++
   [0, 0, 0, 0, 0, 0, 0, 0, 0, 0, 0, 0, 0, 0, 0, 0] ++
   [0, 0, 0, 0, 0, 0, 0, 0, 8, 8, 8, 8, 0, 1, 2, 3] ++
   [0, 0, 0, 0, 0, 0, 0, 0, 0, 0, 0, 0, 0, 0, 0, 0] ++
   [0, 0, 0, 0, 0, 0, 0, 0, 0, 0, 1, 1, 2, 2, 1, 1] ++
   [0, 0, 0, 0, 0, 0, 0, 0, 0, 0, 0, 0, 0, 0, 0, 0] ++
   [0, 0, 0, 1, 0, 1, 0, 0, 0, 0, 2, 3, 0, 0, 0, 4] ++
   [0, 0, 1, 1, 0, 0, 0, 0, 0, 0, 0, 0, 0, 0, 0, 0] ++
   [0, 1, 2, 3, 0, 0, 0, 0, 0, 1, 2, 3, 1, 1, 1, 1] ++
   [0, 0, 0, 1, 0, 0, 0, 0, 0, 0, 9, 9, 10, 10, 0, 0]

theorem xlatSubfunctionRows_length : xlatSubfunctionRows.length = 256 := by decide +kernel

/-- `STD_FLAGS` of `T_REF` (R122). -/
def stdFlagsRows : List Byte :=
   [3, 3, 3, 3, 3, 3, 0, 0, 5, 5, 5, 5, 5, 5, 0, 0] ++
   [1, 1, 1, 1, 1, 1, 0, 0, 1, 1, 1, 1, 1, 1, 0, 0] ++
   [5, 5, 5, 5, 5, 5, 0, 1, 3, 3, 3, 3, 3, 3, 0, 1] ++
   [5, 5, 5, 5, 5, 5, 0, 0, 3, 3, 3, 3, 3, 3, 0, 0] ++
   [1, 1, 1, 1, 1, 1, 1, 1, 1, 1, 1, 1, 1, 1, 1, 1] ++
   [0, 0, 0, 0, 0, 0, 0, 0, 0, 0, 0, 0, 0, 0, 0, 0] ++
   [0, 0, 0, 0, 0, 0, 0, 0, 0, 0, 0, 0, 0, 0, 0, 0] ++
   [0, 0, 0, 0, 0, 0, 0, 0, 0, 0, 0, 0, 0, 0, 0, 0] ++
   [0, 0, 0, 0, 5, 5, 0, 0, 0, 0, 0, 0, 0, 0, 0, 0] ++
   [0, 0, 0, 0, 0, 0, 0, 0, 0, 0, 0, 0, 0, 0, 0, 0] ++
   [0, 0, 0, 0, 0, 0, 0, 0, 5, 5, 0, 0, 0, 0, 0, 0] ++
   [0, 0, 0, 0, 0, 0, 0, 0, 0, 0, 0, 0, 0, 0, 0, 0] ++
   [0, 0, 0, 0, 0, 0, 0, 0, 0, 0, 0, 0, 0, 0, 0, 0] ++
   [0, 0, 0, 0, 1, 1, 0, 0, 0, 0, 0, 0, 0, 0, 0, 0] ++
   [0, 0, 0, 0, 0, 0, 0, 0, 0, 0, 0, 0, 0, 0, 0, 0] ++
   [0, 0, 0, 0, 0, 0, 0, 0, 0, 0, 0, 0, 0, 0, 0, 0]

theorem stdFlagsRows_length : stdFlagsRows.length = 256 := by decide +kernel

/-- `PARITY_FLAG` of `T_REF` (R125). -/
def parityFlagRows : List Byte :=
   [1, 0, 0, 1, 0, 1, 1, 0, 0, 1, 1, 0, 1, 0, 0, 1] ++
   [0, 1, 1, 0, 1, 0, 0, 1, 1, 0, 0, 1, 0, 1, 1, 0] ++
   [0, 1, 1, 0, 1, 0, 0, 1, 1, 0, 0, 1, 0, 1, 1, 0] ++
   [1, 0, 0, 1, 0, 1, 1, 0, 0, 1, 1, 0, 1, 0, 0, 1] ++
   [0, 1, 1, 0, 1, 0, 0, 1, 1, 0, 0, 1, 0, 1, 1, 0] ++
   [1, 0, 0, 1, 0, 1, 1, 0, 0, 1, 1, 0, 1, 0, 0, 1] ++
   [1, 0, 0, 1, 0, 1, 1, 0, 0, 1, 1, 0, 1, 0, 0, 1] ++
   [0, 1, 1, 0, 1, 0, 0, 1, 1, 0, 0, 1, 0, 1, 1, 0] ++
   [0, 1, 1, 0, 1, 0, 0, 1, 1, 0, 0, 1, 0, 1, 1, 0] ++
   [1, 0, 0, 1, 0, 1, 1, 0, 0, 1, 1, 0, 1, 0, 0, 1] ++
   [1, 0, 0, 1, 0, 1, 1, 0, 0, 1, 1, 0, 1, 0, 0, 1] ++
   [0, 1, 1, 0, 1, 0, 0, 1, 1, 0, 0, 1, 0, 1, 1, 0] ++
   [1, 0, 0, 1, 0, 1, 1, 0, 0, 1, 1, 0, 1, 0, 0, 1] ++
   [0, 1, 1, 0, 1, 0, 0, 1, 1, 0, 0, 1, 0, 1, 1, 0] ++
   [0, 1, 1, 0, 1, 0, 0, 1, 1, 0, 0, 1, 0, 1, 1, 0] ++
   [1, 0, 0, 1, 0, 1, 1, 0, 0, 1, 1, 0, 1, 0, 0, 1]

theorem parityFlagRows_length : parityFlagRows.length = 256 := by decide +kernel

/-- `BASE_INST_SIZE` of `T_REF` (R123). -/
def baseInstSizeRows : List Byte :=
   [2, 2, 2, 2, 1, 1, 1, 1, 2, 2, 2, 2, 1, 1, 1, 1] ++
   [2, 2, 2, 2, 1, 1, 1, 1, 2, 2, 2, 2, 1, 1, 1, 1] ++
   [2, 2, 2, 2, 1, 1, 1, 1, 2, 2, 2, 2, 1, 1, 1, 1] ++
   [2, 2, 2, 2, 1, 1, 1, 1, 2, 2, 2, 2, 1, 1, 1, 1] ++
   [1, 1, 1, 1, 1, 1, 1, 1, 1, 1, 1, 1, 1, 1, 1, 1] ++
   [1, 1, 1, 1, 1, 1, 1, 1, 1, 1, 1, 1, 1, 1, 1, 1] ++
   [1, 1, 1, 1, 1, 1, 1, 1, 1, 1, 1, 1, 1, 1, 1, 1] ++
   [2, 2, 2, 2, 2, 2, 2, 2, 2, 2, 2, 2, 2, 2, 2, 2] ++
   [2, 2, 2, 3, 2, 2, 2, 2, 2, 2, 2, 2, 2, 2, 2, 2] ++
   [1, 1, 1, 1, 1, 1, 1, 1, 1, 1, 5, 1, 1, 1, 1, 1] ++
   [3, 3, 3, 3, 1, 1, 1, 1, 1, 1, 1, 1, 1, 1, 1, 1] ++
   [1, 1, 1, 1, 1, 1, 1, 1, 1, 1, 1, 1, 1, 1, 1, 1] ++
   [1, 1, 3, 1, 2, 2, 2, 2, 1, 1, 3, 1, 1, 2, 1, 1] ++
   [2, 2, 2, 2, 2, 2, 1, 1, 1, 1, 1, 1, 1, 1, 1, 1] ++
   [2, 2, 2, 2, 2, 2, 2, 2, 3, 3, 5, 2, 1, 1, 1, 1] ++
   [1, 1, 1, 1, 1, 1, 2, 2, 1, 1, 1, 1, 1, 1, 2, 2]

theorem baseInstSizeRows_length : baseInstSizeRows.length = 256 := by decide +kernel

/-- `I_W_SIZE` of `T_REF` (R123). -/
def iWSizeRows : List Byte :=
   [0, 0, 0, 0, 1, 1, 0, 0, 0, 0, 0, 0, 1, 1, 0, 0] ++
   [0, 0, 0, 0, 1, 1, 0, 0, 0, 0, 0, 0, 1, 1, 0, 0] ++
   [0, 0, 0, 0, 1, 1, 0, 0, 0, 0, 0, 0, 1, 1, 0, 0] ++
   [0, 0, 0, 0, 1, 1, 0, 0, 0, 0, 0, 0, 1, 1, 0, 0] ++
   [0, 0, 0, 0, 0, 0, 0, 0, 0, 0, 0, 0, 0, 0, 0, 0] ++
   [0, 0, 0, 0, 0, 0, 0, 0, 0, 0, 0, 0, 0, 0, 0, 0] ++
   [0, 0, 0, 0, 0, 0, 0, 0, 0, 0, 0, 0, 0, 0, 0, 0] ++
   [0, 0, 0, 0, 0, 0, 0, 0, 0, 0, 0, 0, 0, 0, 0, 0] ++
   [1, 1, 1, 0, 0, 0, 0, 0, 0, 0, 0, 0, 0, 0, 0, 0] ++
   [0, 0, 0, 0, 0, 0, 0, 0, 0, 0, 0, 0, 0, 0, 0, 0] ++
   [0, 0, 0, 0, 0, 0, 0, 0, 1, 1, 0, 0, 0, 0, 0, 0] ++
   [1, 1, 1, 1, 1, 1, 1, 1, 1, 1, 1, 1, 1, 1, 1, 1] ++
   [0, 0, 0, 0, 0, 0, 1, 1, 0, 0, 0, 0, 0, 0, 0, 0] ++
   [0, 0, 0, 0, 0, 0, 0, 0, 0, 0, 0, 0, 0, 0, 0, 0] ++
   [0, 0, 0, 0, 0, 0, 0, 0, 0, 0, 0, 0, 0, 0, 0, 0] ++
   [0, 0, 0, 0, 0, 0, 0, 0, 0, 0, 0, 0, 0, 0, 0, 0]

theorem iWSizeRows_length : iWSizeRows.length = 256 := by decide +kernel

/-- `I_MOD_SIZE` of `T_REF` (R124). -/
def iModSizeRows : List Byte :=
   [1, 1, 1, 1, 0, 0, 0, 0, 1, 1, 1, 1, 0, 0, 0, 0] ++
   [1, 1, 1, 1, 0, 0, 0, 0, 1, 1, 1, 1, 0, 0, 0, 0] ++
   [1, 1, 1, 1, 0, 0, 0, 0, 1, 1, 1, 1, 0, 0, 0, 0] ++
   [1, 1, 1, 1, 0, 0, 0, 0, 1, 1, 1, 1, 0, 0, 0, 0] ++
   [0, 0, 0, 0, 0, 0, 0, 0, 0, 0, 0, 0, 0, 0, 0, 0] ++
   [0, 0, 0, 0, 0, 0, 0, 0, 0, 0, 0, 0, 0, 0, 0, 0] ++
   [0, 0, 0, 0, 0, 0, 0, 0, 0, 0, 0, 0, 0, 0, 0, 0] ++
   [0, 0, 0, 0, 0, 0, 0, 0, 0, 0, 0, 0, 0, 0, 0, 0] ++
   [1, 1, 1, 1, 1, 1, 1, 1, 1, 1, 1, 1, 1, 1, 1, 1] ++
   [0, 0, 0, 0, 0, 0, 0, 0, 0, 0, 0, 0, 0, 0, 0, 0] ++
   [0, 0, 0, 0, 0, 0, 0, 0, 0, 0, 0, 0, 0, 0, 0, 0] ++
   [0, 0, 0, 0, 0, 0, 0, 0, 0, 0, 0, 0, 0, 0, 0, 0] ++
   [0, 0, 0, 0, 1, 1, 1, 1, 0, 0, 0, 0, 0, 0, 0, 0] ++
   [1, 1, 1, 1, 0, 0, 0, 0, 0, 0, 0, 0, 0, 0, 0, 0] ++
   [0, 0, 0, 0, 0, 0, 0, 0, 0, 0, 0, 0, 0, 0, 0, 0] ++
   [0, 0, 0, 0, 0, 0, 1, 1, 0, 0, 0, 0, 0, 0, 1, 1]

theorem iModSizeRows_length : iModSizeRows.length = 256 := by decide +kernel

/-- `T_REF`, the reference contents of the decode tables (30_encoding.md R120): rule R128 for the addressing tables,
R121 to R125 for the byte-indexed ones, R126 for the conditional jumps, R127 for FLAGS_BITFIELDS. -/
def tRef : Tables where
  reg1Disp := rmTable [3, 3, 5, 5, 6, 7, 5, 3] rfl
  reg2Disp := rmTable [6, 7, 6, 7, 12, 12, 12, 12] rfl
  multDisp := rmTable [1, 1, 1, 1, 1, 1, 1, 1] rfl
  segDisp := rmTable [11, 11, 10, 10, 11, 11, 10, 11] rfl
  reg1Zero := rmTable [3, 3, 5, 5, 6, 7, 12, 3] rfl
  reg2Zero := rmTable [6, 7, 6, 7, 12, 12, 12, 12] rfl
  multZero := rmTable [0, 0, 0, 0, 0, 0, 1, 0] rfl
  segZero := rmTable [11, 11, 10, 10, 11, 11, 11, 11] rfl
  xlatOpcode := ⟨⟨xlatOpcodeRows⟩, xlatOpcodeRows_length⟩
  xlatSubfunction := ⟨⟨xlatSubfunctionRows⟩, xlatSubfunctionRows_length⟩
  stdFlags := ⟨⟨stdFlagsRows⟩, stdFlagsRows_length⟩
  parityFlag := ⟨⟨parityFlagRows⟩, parityFlagRows_length⟩
  baseInstSize := ⟨⟨baseInstSizeRows⟩, baseInstSizeRows_length⟩
  iWSize := ⟨⟨iWSizeRows⟩, iWSizeRows_length⟩
  iModSize := ⟨⟨iModSizeRows⟩, iModSizeRows_length⟩
  condA := #v[11, 0, 6, 0, 7, 2, 1, 1]
  condB := #v[1, 1, 1, 6, 1, 1, 1, 6]
  condC := #v[1, 1, 1, 1, 1, 1, 7, 7]
  condD := #v[1, 1, 1, 1, 1, 1, 11, 11]
  flagsBitfields := #v[0, 2, 4, 6, 7, 8, 9, 10, 11, 0]

/-- The first fifteen tables by their index `i` of R117; the last of them for a larger index. -/
def Tables.byIndex (T : Tables) (i : Nat) : Vector Byte 256 :=
  match i with
  | 0 => T.reg1Disp
  | 1 => T.reg2Disp
  | 2 => T.multDisp
  | 3 => T.segDisp
  | 4 => T.reg1Zero
  | 5 => T.reg2Zero
  | 6 => T.multZero
  | 7 => T.segZero
  | 8 => T.xlatOpcode
  | 9 => T.xlatSubfunction
  | 10 => T.stdFlags
  | 11 => T.parityFlag
  | 12 => T.baseInstSize
  | 13 => T.iWSize
  | _ => T.iModSize

/-- The conditional-jump tables by their index 15 to 18, less 15. -/
def Tables.condByIndex (T : Tables) (i : Nat) : Vector Byte 8 :=
  match i with
  | 0 => T.condA
  | 1 => T.condB
  | 2 => T.condC
  | _ => T.condD

end Sys2Proof
end

