-- ==== Sys2Proof/Syntax.lean ====
section
/-! DEFINITION. The syntax of the instructions (30_encoding.md R93, R129): one constructor for each instruction and format
of spec/opcode_table.json. Rows that differ only in the value of an operand field (a segment register, a register number,
the width, the opcode byte of an alias) share a constructor; INVENTORY.md lists the rows of each (notes/assumptions/18.md). -/

namespace Sys2Proof

/-- The segment registers, in the order of their segment numbers 0 to 3 (10_state.md R21). -/
inductive SReg where
  | es | cs | ss | ds
deriving DecidableEq, Repr

/-- The `mod` and `rm` fields of a ModRM byte with the displacement that follows (30_encoding.md R94, R101). -/
inductive RM where
  /-- `mod = 3`: the register with number `rm`. -/
  | reg (rm : BitVec 3)
  /-- `mod = 0`, `rm` not 6: no displacement. -/
  | mem (rm : BitVec 3)
  /-- `mod = 0`, `rm = 6`: the direct address (R107). -/
  | direct (disp : Word)
  /-- `mod = 1`: an 8-bit displacement. -/
  | mem8 (rm : BitVec 3) (disp : Byte)
  /-- `mod = 2`: a 16-bit displacement. -/
  | mem16 (rm : BitVec 3) (disp : Word)
deriving DecidableEq, Repr

/-- A ModRM byte and its displacement: the `reg` field (a register, a segment register or a `/digit`) and the operand. -/
structure ModRM where
  reg : BitVec 3
  ea : RM
deriving DecidableEq, Repr

/-- What steps 1 to 3 of a pass read of an instruction (30_encoding.md R91): the opcode byte `B0`, by which the engine
indexes its decode tables and from which handlers take `w`, `d` and register numbers (R92, R95 to R97), and the ModRM byte
if `I_MOD_SIZE[B0] > 0`. -/
structure Head where
  op : Byte
  modrm : Option ModRM
deriving DecidableEq, Repr

/-- The instructions. Each holds its `Head` and the operand bytes that follow it. An immediate whose size depends on the
width is held as a `Word`; `WellFormed` asks that a one-byte immediate is below 256. -/
inductive Instr where
  /-- ADD r/m,reg and reg,r/m (00 to 03; R171). -/
  | addRmReg (h : Head)
  /-- ADD AL,imm8 and AX,imm16 (04, 05; R171). -/
  | addAccImm (h : Head) (imm : Word)
  /-- ADD r/m,imm (80 to 83 /0; R171). -/
  | addRmImm (h : Head) (imm : Word)
  /-- OR r/m,reg and reg,r/m (08 to 0B; R202). -/
  | orRmReg (h : Head)
  /-- OR AL,imm8 and AX,imm16 (0C, 0D; R202). -/
  | orAccImm (h : Head) (imm : Word)
  /-- OR r/m,imm (80 to 83 /1; R202). -/
  | orRmImm (h : Head) (imm : Word)
  /-- ADC r/m,reg and reg,r/m (10 to 13; R172). -/
  | adcRmReg (h : Head)
  /-- ADC AL,imm8 and AX,imm16 (14, 15; R172). -/
  | adcAccImm (h : Head) (imm : Word)
  /-- ADC r/m,imm (80 to 83 /2; R172). -/
  | adcRmImm (h : Head) (imm : Word)
  /-- SBB r/m,reg and reg,r/m (18 to 1B; R174). -/
  | sbbRmReg (h : Head)
  /-- SBB AL,imm8 and AX,imm16 (1C, 1D; R174). -/
  | sbbAccImm (h : Head) (imm : Word)
  /-- SBB r/m,imm (80 to 83 /3; R174). -/
  | sbbRmImm (h : Head) (imm : Word)
  /-- AND r/m,reg and reg,r/m (20 to 23; R201). -/
  | andRmReg (h : Head)
  /-- AND AL,imm8 and AX,imm16 (24, 25; R201). -/
  | andAccImm (h : Head) (imm : Word)
  /-- AND r/m,imm (80 to 83 /4; R201). -/
  | andRmImm (h : Head) (imm : Word)
  /-- SUB r/m,reg and reg,r/m (28 to 2B; R173). -/
  | subRmReg (h : Head)
  /-- SUB AL,imm8 and AX,imm16 (2C, 2D; R173). -/
  | subAccImm (h : Head) (imm : Word)
  /-- SUB r/m,imm (80 to 83 /5; R173). -/
  | subRmImm (h : Head) (imm : Word)
  /-- XOR r/m,reg and reg,r/m (30 to 33; R203). -/
  | xorRmReg (h : Head)
  /-- XOR AL,imm8 and AX,imm16 (34, 35; R203). -/
  | xorAccImm (h : Head) (imm : Word)
  /-- XOR r/m,imm (80 to 83 /6; R203). -/
  | xorRmImm (h : Head) (imm : Word)
  /-- CMP r/m,reg and reg,r/m (38 to 3B; R175). -/
  | cmpRmReg (h : Head)
  /-- CMP AL,imm8 and AX,imm16 (3C, 3D; R175). -/
  | cmpAccImm (h : Head) (imm : Word)
  /-- CMP r/m,imm (80 to 83 /7; R175). -/
  | cmpRmImm (h : Head) (imm : Word)
  /-- MOV r/m,reg and reg,r/m (88 to 8B; R141). -/
  | movRmReg (h : Head)
  /-- MOV reg,imm (B0 to BF; R142). -/
  | movRegImm (h : Head) (imm : Word)
  /-- MOV r/m,imm (C6, C7 /0; R143). -/
  | movRmImm (h : Head) (imm : Word)
  /-- MOV accumulator,direct offset and its store form (A0 to A3; R144). -/
  | movMoffs (h : Head) (addr : Word)
  /-- MOV r/m16,sreg (8C /0 to /3; R145). -/
  | movRmSreg (h : Head)
  /-- MOV sreg,r/m16 (8E /0 to /3; R146). -/
  | movSregRm (h : Head)
  /-- XCHG r/m,reg (86, 87; R147). -/
  | xchgRmReg (h : Head)
  /-- XCHG AX,r16 (91 to 97; R148). -/
  | xchgAx (h : Head)
  /-- NOP (90; R149). -/
  | nop (h : Head)
  /-- LEA r16,m (8D; R150). -/
  | lea (h : Head)
  /-- LES r16,m16:16 (C4; R151). -/
  | les (h : Head)
  /-- LDS r16,m16:16 (C5; R152). -/
  | lds (h : Head)
  /-- XLAT (D7; R153). -/
  | xlat (h : Head)
  /-- CBW (98; R154). -/
  | cbw (h : Head)
  /-- CWD (99; R155). -/
  | cwd (h : Head)
  /-- INC r16 (40 to 47; R176). -/
  | incReg (h : Head)
  /-- INC r/m (FE, FF /0; R176). -/
  | incRm (h : Head)
  /-- DEC r16 (48 to 4F; R177). -/
  | decReg (h : Head)
  /-- DEC r/m (FE, FF /1; R177). -/
  | decRm (h : Head)
  /-- NEG r/m (F6, F7 /3; R178). -/
  | neg (h : Head)
  /-- MUL r/m (F6, F7 /4; R179). -/
  | mul (h : Head)
  /-- IMUL r/m (F6, F7 /5; R180). -/
  | imul (h : Head)
  /-- DIV r/m (F6, F7 /6; R181). -/
  | div (h : Head)
  /-- IDIV r/m (F6, F7 /7; R182). -/
  | idiv (h : Head)
  /-- DAA (27; R183). -/
  | daa (h : Head)
  /-- DAS (2F; R184). -/
  | das (h : Head)
  /-- AAA (37; R185). -/
  | aaa (h : Head)
  /-- AAS (3F; R186). -/
  | aas (h : Head)
  /-- AAM imm8 (D4; R187). -/
  | aam (h : Head) (imm : Byte)
  /-- AAD imm8 (D5; R188). -/
  | aad (h : Head) (imm : Byte)
  /-- NOT r/m (F6, F7 /2; R204). -/
  | not (h : Head)
  /-- TEST r/m,reg (84, 85; R205). -/
  | testRmReg (h : Head)
  /-- TEST AL,imm8 and AX,imm16 (A8, A9; R205). -/
  | testAccImm (h : Head) (imm : Word)
  /-- TEST r/m,imm (F6, F7 /0; R205). -/
  | testRmImm (h : Head) (imm : Word)
  /-- ROL r/m,1 (D0, D1 /0; R207). -/
  | rolOne (h : Head)
  /-- ROL r/m,CL (D2, D3 /0; R207). -/
  | rolCl (h : Head)
  /-- ROR r/m,1 (D0, D1 /1; R208). -/
  | rorOne (h : Head)
  /-- ROR r/m,CL (D2, D3 /1; R208). -/
  | rorCl (h : Head)
  /-- RCL r/m,1 (D0, D1 /2; R209). -/
  | rclOne (h : Head)
  /-- RCL r/m,CL (D2, D3 /2; R209). -/
  | rclCl (h : Head)
  /-- RCR r/m,1 (D0, D1 /3; R210). -/
  | rcrOne (h : Head)
  /-- RCR r/m,CL (D2, D3 /3; R210). -/
  | rcrCl (h : Head)
  /-- SHL r/m,1 (D0, D1 /4; R211). -/
  | shlOne (h : Head)
  /-- SHL r/m,CL (D2, D3 /4; R211). -/
  | shlCl (h : Head)
  /-- SHR r/m,1 (D0, D1 /5; R212). -/
  | shrOne (h : Head)
  /-- SHR r/m,CL (D2, D3 /5; R212). -/
  | shrCl (h : Head)
  /-- SAR r/m,1 (D0, D1 /7; R213). -/
  | sarOne (h : Head)
  /-- SAR r/m,CL (D2, D3 /7; R213). -/
  | sarCl (h : Head)
  /-- JO rel8 (70; R231). -/
  | jo (h : Head) (rel : Byte)
  /-- JNO rel8 (71; R232). -/
  | jno (h : Head) (rel : Byte)
  /-- JB rel8 (72; R233). -/
  | jb (h : Head) (rel : Byte)
  /-- JNB rel8 (73; R234). -/
  | jnb (h : Head) (rel : Byte)
  /-- JZ rel8 (74; R235). -/
  | jz (h : Head) (rel : Byte)
  /-- JNZ rel8 (75; R236). -/
  | jnz (h : Head) (rel : Byte)
  /-- JBE rel8 (76; R237). -/
  | jbe (h : Head) (rel : Byte)
  /-- JNBE rel8 (77; R238). -/
  | jnbe (h : Head) (rel : Byte)
  /-- JS rel8 (78; R239). -/
  | js (h : Head) (rel : Byte)
  /-- JNS rel8 (79; R240). -/
  | jns (h : Head) (rel : Byte)
  /-- JP rel8 (7A; R241). -/
  | jp (h : Head) (rel : Byte)
  /-- JNP rel8 (7B; R242). -/
  | jnp (h : Head) (rel : Byte)
  /-- JL rel8 (7C; R243). -/
  | jl (h : Head) (rel : Byte)
  /-- JNL rel8 (7D; R244). -/
  | jnl (h : Head) (rel : Byte)
  /-- JLE rel8 (7E; R245). -/
  | jle (h : Head) (rel : Byte)
  /-- JNLE rel8 (7F; R246). -/
  | jnle (h : Head) (rel : Byte)
  /-- JMP rel8 (EB; R247). -/
  | jmpRel8 (h : Head) (rel : Byte)
  /-- JMP rel16 (E9; R248). -/
  | jmpRel16 (h : Head) (rel : Word)
  /-- JMP ptr16:16 (EA; R249). -/
  | jmpFar (h : Head) (off seg : Word)
  /-- JMP r/m16 (FF /4; R250). -/
  | jmpRm (h : Head)
  /-- JMP m16:16 (FF /5; R251). -/
  | jmpFarRm (h : Head)
  /-- CALL rel16 (E8; R252). -/
  | callRel (h : Head) (rel : Word)
  /-- CALL ptr16:16 (9A; R253). -/
  | callFar (h : Head) (off seg : Word)
  /-- CALL r/m16 (FF /2; R254). -/
  | callRm (h : Head)
  /-- CALL m16:16 (FF /3; R255). -/
  | callFarRm (h : Head)
  /-- RET (C3; R256). -/
  | ret (h : Head)
  /-- RET imm16 (C2; R257). -/
  | retImm (h : Head) (imm : Word)
  /-- RETF (CB; R258). -/
  | retf (h : Head)
  /-- RETF imm16 (CA; R259). -/
  | retfImm (h : Head) (imm : Word)
  /-- IRET (CF; R260). -/
  | iret (h : Head)
  /-- LOOPNZ rel8 (E0; R263). -/
  | loopnz (h : Head) (rel : Byte)
  /-- LOOPZ rel8 (E1; R262). -/
  | loopz (h : Head) (rel : Byte)
  /-- LOOP rel8 (E2; R261). -/
  | loop (h : Head) (rel : Byte)
  /-- JCXZ rel8 (E3; R264). -/
  | jcxz (h : Head) (rel : Byte)
  /-- MOVSB, MOVSW (A4, A5; R272). -/
  | movs (h : Head)
  /-- STOSB, STOSW (AA, AB; R273). -/
  | stos (h : Head)
  /-- LODSB, LODSW (AC, AD; R274). -/
  | lods (h : Head)
  /-- CMPSB, CMPSW (A6, A7; R275). -/
  | cmps (h : Head)
  /-- SCASB, SCASW (AE, AF; R276). -/
  | scas (h : Head)
  /-- PUSH r16 (50 to 57; R291). -/
  | pushReg (h : Head)
  /-- PUSH sreg (06, 0E, 16, 1E; R292). -/
  | pushSreg (h : Head) (r : SReg)
  /-- PUSH r/m16 (FF /6; R293). -/
  | pushRm (h : Head)
  /-- POP r16 (58 to 5F; R294). -/
  | popReg (h : Head)
  /-- POP sreg (07, 17, 1F; R295). -/
  | popSreg (h : Head) (r : SReg)
  /-- POP r/m16 (8F /0; R296). -/
  | popRm (h : Head)
  /-- PUSHF (9C; R297). -/
  | pushf (h : Head)
  /-- POPF (9D; R298). -/
  | popf (h : Head)
  /-- CLC (F8; R310). -/
  | clc (h : Head)
  /-- STC (F9; R311). -/
  | stc (h : Head)
  /-- CLI (FA; R312). -/
  | cli (h : Head)
  /-- STI (FB; R313). -/
  | sti (h : Head)
  /-- CLD (FC; R314). -/
  | cld (h : Head)
  /-- STD (FD; R315). -/
  | std (h : Head)
  /-- CMC (F5; R316). -/
  | cmc (h : Head)
  /-- LAHF (9F; R317). -/
  | lahf (h : Head)
  /-- SAHF (9E; R318). -/
  | sahf (h : Head)
  /-- IN AL,imm8 and AX,imm8 (E4, E5; R320). -/
  | inImm (h : Head) (port : Byte)
  /-- IN AL,DX and AX,DX (EC, ED; R320). -/
  | inDx (h : Head)
  /-- OUT imm8,AL and imm8,AX (E6, E7; R321). -/
  | outImm (h : Head) (port : Byte)
  /-- OUT DX,AL and DX,AX (EE, EF; R321). -/
  | outDx (h : Head)
  /-- The segment-override prefixes ES: CS: SS: DS: (26, 2E, 36, 3E; R322). -/
  | seg (h : Head) (r : SReg)
  /-- REPNZ (F2; R323). -/
  | repnz (h : Head)
  /-- REPZ (F3; R324). -/
  | repz (h : Head)
  /-- INT3 (CC; R325). -/
  | int3 (h : Head)
  /-- INT imm8 (CD; R326). -/
  | int (h : Head) (vector : Byte)
  /-- INTO (CE; R327). -/
  | into (h : Head)
  /-- HLT (F4; R328). -/
  | hlt (h : Head)
  /-- A reserved first byte (0F, 60 to 6F, C0, C1, C8, C9, D6, F1; R329). -/
  | reservedOpcode (h : Head)
  /-- WAIT, which has no handler (9B; R330). -/
  | reservedWait (h : Head)
  /-- LOCK, which has no handler (F0; R331). -/
  | reservedLock (h : Head)
  /-- ESC, which has no handler (D8 to DF; R332). -/
  | reservedEsc (h : Head)
  /-- A class, subfunction and /digit no handler covers (8C 8E /4 to /7, 8F C6 C7 /1 to /7, D0 to D3 /6, F6 F7 /1, FE /2 to /7, FF /7; R329, R214). -/
  | reservedMember (h : Head)
deriving DecidableEq, Repr

end Sys2Proof
end

