-- ==== Sys2Proof/Machine/Fields.lean ====
section
/-! DEFINITION. Byte order, sign extension and the fields of an instruction's first bytes (20_memory.md R66; 30_encoding.md
R94 to R97, R101, R110). -/

namespace Sys2Proof

/-- Bits 7:0 of a word, the byte at the lower address (20_memory.md R66). -/
def loByte (v : Word) : Byte := v.extractLsb' 0 8

/-- Bits 15:8 of a word, the byte at the higher address. -/
def hiByte (v : Word) : Byte := v.extractLsb' 8 8

/-- The word whose low byte is `l` and whose high byte is `h`. -/
def mkWord (l h : Byte) : Word := h ++ l

/-- `sext_16` (00_scope.md R9). -/
def sext (b : Byte) : Word := b.signExtend 16

/-- `signed_W` (00_scope.md R9) of a number below `2^W`. -/
def signedOf (w : Width) (v : Nat) : Int :=
  if v < 2 ^ (w.bits - 1) then (v : Int) else (v : Int) - (2 ^ w.bits : Nat)

/-- The number in `[0, 2^W)` that an integer has modulo `2^W`. -/
def narrow (w : Width) (z : Int) : Nat := (z % (2 ^ w.bits : Nat)).toNat

/-- An immediate as an unsigned number of the operand's width. -/
def immValue (w : Width) (imm : Word) : Nat := imm.toNat % 2 ^ w.bits

/-- `mod`, bits 7:6 of the ModRM byte (R94). -/
def modField (b : Byte) : BitVec 2 := b.extractLsb' 6 2

/-- `reg`, bits 5:3 of the ModRM byte (R94). -/
def regField (b : Byte) : BitVec 3 := b.extractLsb' 3 3

/-- `rm`, bits 2:0 of the ModRM byte (R94). -/
def rmField (b : Byte) : BitVec 3 := b.extractLsb' 0 3

/-- The ModRM byte with these fields (R94). -/
def modrmByte (mod : BitVec 2) (reg rm : BitVec 3) : Byte := mod ++ reg ++ rm

/-- `dispBytes` of R101. -/
def RM.dispBytes : RM → Nat
  | .reg _ => 0
  | .mem _ => 0
  | .direct _ => 2
  | .mem8 _ _ => 1
  | .mem16 _ _ => 2

/-- The width bit of R96: `B0[3]` for `MOV reg, imm` (B0 to BF), 1 for 8C, 8E and C4, else `B0[0]`. -/
def opWidth (op : Byte) : Width :=
  if op.extractLsb' 4 4 = (0xB : BitVec 4) then Width.ofBit (op.getLsbD 3)
  else if op = 0x8C ∨ op = 0x8E ∨ op = 0xC4 then .word
  else Width.ofBit (op.getLsbD 0)

/-- The operand width of an instruction. -/
def Head.width (h : Head) : Width := opWidth h.op

/-- The direction bit `d = B0[1]` (R97); it is also the bit `s` of 80 to 83 (R110) and the store bit of `MOFFS`. -/
def Head.dir (h : Head) : Bool := h.op.getLsbD 1

/-- The register number `B0[2:0]` of the formats `REG` and `REG_IMM` (R95). -/
def Head.opReg (h : Head) : BitVec 3 := h.op.extractLsb' 0 3

/-- The `/digit`: the `reg` field of the ModRM byte, if there is one (R108). -/
def Head.digit (h : Head) : Option Nat := h.modrm.map fun m => m.reg.toNat

/-- The displacement bytes of the ModRM operand, if there is one. -/
def Head.dispBytes (h : Head) : Nat :=
  match h.modrm with
  | some m => m.ea.dispBytes
  | none => 0

/-- 80 to 83: the immediate is two bytes exactly for `s = 0`, `w = 1` (R110). -/
def Head.aluImmWidth (h : Head) : Width := if h.dir then .byte else h.width

/-- The immediate of 80 to 83 as an unsigned number: for `s = 1`, `w = 1` the byte sign-extended (R110). -/
def Head.aluImm (h : Head) (imm : Word) : Nat :=
  match h.width, h.dir with
  | .word, true => (sext (loByte imm)).toNat
  | w, _ => immValue w imm

/-- The segment register with segment number `s` (10_state.md R21). -/
def SReg.ofNumber (s : BitVec 2) : SReg :=
  match s.toNat with
  | 0 => .es
  | 1 => .cs
  | 2 => .ss
  | _ => .ds

end Sys2Proof
end

