-- ==== Sys2Proof/WellFormed.lean ====
section
/-! DEFINITION. When an instruction is well formed: its opcode byte is one the opcode map gives it, it has a ModRM byte
exactly where its format has one, with the `/digit` the map gives, and a one-byte immediate is below 256 (30_encoding.md
R93, R110, R129 to R131). -/

namespace Sys2Proof

/-- A ModRM operand in the form its bytes have: `mod = 0`, `rm = 6` is the direct form (30_encoding.md R107). -/
def RM.wellFormed : RM → Bool
  | .mem rm => rm != 6
  | .reg _ | .direct _ | .mem8 _ _ | .mem16 _ _ => true

/-- The opcode byte is `op`. -/
def Head.opIs (h : Head) (op : Byte) : Bool := h.op == op

/-- The opcode byte is in `lo .. hi`. -/
def Head.opIn (h : Head) (lo hi : Nat) : Bool := decide (lo ≤ h.op.toNat) && decide (h.op.toNat ≤ hi)

/-- The instruction has no ModRM byte. -/
def Head.noRm (h : Head) : Bool := h.modrm.isNone

/-- The instruction has a ModRM byte in its encoded form. -/
def Head.hasRm (h : Head) : Bool :=
  match h.modrm with
  | some m => m.ea.wellFormed
  | none => false

/-- The instruction has a ModRM byte whose `reg` field is the `/digit` `k`. -/
def Head.hasDigit (h : Head) (k : BitVec 3) : Bool :=
  match h.modrm with
  | some m => m.ea.wellFormed && m.reg == k
  | none => false

/-- The instruction has a ModRM byte whose `reg` field is a segment number 0 to 3 (format `RM_SREG`). -/
def Head.hasSreg (h : Head) : Bool :=
  match h.modrm with
  | some m => m.ea.wellFormed && decide (m.reg.toNat < 4)
  | none => false

/-- The immediate has the width the instruction stores it with (30_encoding.md R110). -/
def immFits (w : Width) (imm : Word) : Bool := decide (imm.toNat < 2 ^ w.bits)

/-- The opcode byte of an instruction with the segment number in bits 4:3 (45_stack.md R292, R295;
47_io_prefix_int_halt.md R322). -/
def sregOp (r : SReg) (base : Byte) : Byte :=
  match r with
  | .es => base
  | .cs => base + 0x08
  | .ss => base + 0x10
  | .ds => base + 0x18

/-- The reserved first bytes of 47_io_prefix_int_halt.md R329. -/
def Head.isReservedByte (h : Head) : Bool :=
  h.opIs 0x0F || h.opIn 0x60 0x6F || h.opIn 0xC0 0xC1 || h.opIn 0xC8 0xC9 || h.opIs 0xD6 || h.opIs 0xF1

/-- The reserved group members of 30_encoding.md R131. -/
def Head.isReservedMember (h : Head) : Bool :=
  match h.modrm with
  | none => false
  | some m =>
    m.ea.wellFormed &&
    (((h.opIs 0x8C || h.opIs 0x8E) && decide (4 ≤ m.reg.toNat)) ||
     ((h.opIs 0x8F || h.opIn 0xC6 0xC7) && decide (1 ≤ m.reg.toNat)) ||
     (h.opIn 0xD0 0xD3 && m.reg == 6) ||
     (h.opIn 0xF6 0xF7 && m.reg == 1) ||
     (h.opIs 0xFE && decide (2 ≤ m.reg.toNat)) ||
     (h.opIs 0xFF && m.reg == 7))

/-- The well-formed instructions are those of the opcode map (30_encoding.md R129). -/
def Instr.wellFormed : Instr → Bool
  | .addRmReg h => h.opIn 0x00 0x03 && h.hasRm
  | .addAccImm h imm => h.opIn 0x04 0x05 && h.noRm && immFits h.width imm
  | .addRmImm h imm => h.opIn 0x80 0x83 && h.hasDigit 0 && immFits h.aluImmWidth imm
  | .orRmReg h => h.opIn 0x08 0x0B && h.hasRm
  | .orAccImm h imm => h.opIn 0x0C 0x0D && h.noRm && immFits h.width imm
  | .orRmImm h imm => h.opIn 0x80 0x83 && h.hasDigit 1 && immFits h.aluImmWidth imm
  | .adcRmReg h => h.opIn 0x10 0x13 && h.hasRm
  | .adcAccImm h imm => h.opIn 0x14 0x15 && h.noRm && immFits h.width imm
  | .adcRmImm h imm => h.opIn 0x80 0x83 && h.hasDigit 2 && immFits h.aluImmWidth imm
  | .sbbRmReg h => h.opIn 0x18 0x1B && h.hasRm
  | .sbbAccImm h imm => h.opIn 0x1C 0x1D && h.noRm && immFits h.width imm
  | .sbbRmImm h imm => h.opIn 0x80 0x83 && h.hasDigit 3 && immFits h.aluImmWidth imm
  | .andRmReg h => h.opIn 0x20 0x23 && h.hasRm
  | .andAccImm h imm => h.opIn 0x24 0x25 && h.noRm && immFits h.width imm
  | .andRmImm h imm => h.opIn 0x80 0x83 && h.hasDigit 4 && immFits h.aluImmWidth imm
  | .subRmReg h => h.opIn 0x28 0x2B && h.hasRm
  | .subAccImm h imm => h.opIn 0x2C 0x2D && h.noRm && immFits h.width imm
  | .subRmImm h imm => h.opIn 0x80 0x83 && h.hasDigit 5 && immFits h.aluImmWidth imm
  | .xorRmReg h => h.opIn 0x30 0x33 && h.hasRm
  | .xorAccImm h imm => h.opIn 0x34 0x35 && h.noRm && immFits h.width imm
  | .xorRmImm h imm => h.opIn 0x80 0x83 && h.hasDigit 6 && immFits h.aluImmWidth imm
  | .cmpRmReg h => h.opIn 0x38 0x3B && h.hasRm
  | .cmpAccImm h imm => h.opIn 0x3C 0x3D && h.noRm && immFits h.width imm
  | .cmpRmImm h imm => h.opIn 0x80 0x83 && h.hasDigit 7 && immFits h.aluImmWidth imm
  | .movRmReg h => h.opIn 0x88 0x8B && h.hasRm
  | .movRegImm h imm => h.opIn 0xB0 0xBF && h.noRm && immFits h.width imm
  | .movRmImm h imm => h.opIn 0xC6 0xC7 && h.hasDigit 0 && immFits h.width imm
  | .movMoffs h _ => h.opIn 0xA0 0xA3 && h.noRm
  | .movRmSreg h => h.opIs 0x8C && h.hasSreg
  | .movSregRm h => h.opIs 0x8E && h.hasSreg
  | .xchgRmReg h => h.opIn 0x86 0x87 && h.hasRm
  | .xchgAx h => h.opIn 0x91 0x97 && h.noRm
  | .nop h => h.opIs 0x90 && h.noRm
  | .lea h => h.opIs 0x8D && h.hasRm
  | .les h => h.opIs 0xC4 && h.hasRm
  | .lds h => h.opIs 0xC5 && h.hasRm
  | .xlat h => h.opIs 0xD7 && h.noRm
  | .cbw h => h.opIs 0x98 && h.noRm
  | .cwd h => h.opIs 0x99 && h.noRm
  | .incReg h => h.opIn 0x40 0x47 && h.noRm
  | .incRm h => h.opIn 0xFE 0xFF && h.hasDigit 0
  | .decReg h => h.opIn 0x48 0x4F && h.noRm
  | .decRm h => h.opIn 0xFE 0xFF && h.hasDigit 1
  | .neg h => h.opIn 0xF6 0xF7 && h.hasDigit 3
  | .mul h => h.opIn 0xF6 0xF7 && h.hasDigit 4
  | .imul h => h.opIn 0xF6 0xF7 && h.hasDigit 5
  | .div h => h.opIn 0xF6 0xF7 && h.hasDigit 6
  | .idiv h => h.opIn 0xF6 0xF7 && h.hasDigit 7
  | .daa h => h.opIs 0x27 && h.noRm
  | .das h => h.opIs 0x2F && h.noRm
  | .aaa h => h.opIs 0x37 && h.noRm
  | .aas h => h.opIs 0x3F && h.noRm
  | .aam h _ => h.opIs 0xD4 && h.noRm
  | .aad h _ => h.opIs 0xD5 && h.noRm
  | .not h => h.opIn 0xF6 0xF7 && h.hasDigit 2
  | .testRmReg h => h.opIn 0x84 0x85 && h.hasRm
  | .testAccImm h imm => h.opIn 0xA8 0xA9 && h.noRm && immFits h.width imm
  | .testRmImm h imm => h.opIn 0xF6 0xF7 && h.hasDigit 0 && immFits h.width imm
  | .rolOne h => h.opIn 0xD0 0xD1 && h.hasDigit 0
  | .rolCl h => h.opIn 0xD2 0xD3 && h.hasDigit 0
  | .rorOne h => h.opIn 0xD0 0xD1 && h.hasDigit 1
  | .rorCl h => h.opIn 0xD2 0xD3 && h.hasDigit 1
  | .rclOne h => h.opIn 0xD0 0xD1 && h.hasDigit 2
  | .rclCl h => h.opIn 0xD2 0xD3 && h.hasDigit 2
  | .rcrOne h => h.opIn 0xD0 0xD1 && h.hasDigit 3
  | .rcrCl h => h.opIn 0xD2 0xD3 && h.hasDigit 3
  | .shlOne h => h.opIn 0xD0 0xD1 && h.hasDigit 4
  | .shlCl h => h.opIn 0xD2 0xD3 && h.hasDigit 4
  | .shrOne h => h.opIn 0xD0 0xD1 && h.hasDigit 5
  | .shrCl h => h.opIn 0xD2 0xD3 && h.hasDigit 5
  | .sarOne h => h.opIn 0xD0 0xD1 && h.hasDigit 7
  | .sarCl h => h.opIn 0xD2 0xD3 && h.hasDigit 7
  | .jo h _ => h.opIs 0x70 && h.noRm
  | .jno h _ => h.opIs 0x71 && h.noRm
  | .jb h _ => h.opIs 0x72 && h.noRm
  | .jnb h _ => h.opIs 0x73 && h.noRm
  | .jz h _ => h.opIs 0x74 && h.noRm
  | .jnz h _ => h.opIs 0x75 && h.noRm
  | .jbe h _ => h.opIs 0x76 && h.noRm
  | .jnbe h _ => h.opIs 0x77 && h.noRm
  | .js h _ => h.opIs 0x78 && h.noRm
  | .jns h _ => h.opIs 0x79 && h.noRm
  | .jp h _ => h.opIs 0x7A && h.noRm
  | .jnp h _ => h.opIs 0x7B && h.noRm
  | .jl h _ => h.opIs 0x7C && h.noRm
  | .jnl h _ => h.opIs 0x7D && h.noRm
  | .jle h _ => h.opIs 0x7E && h.noRm
  | .jnle h _ => h.opIs 0x7F && h.noRm
  | .jmpRel8 h _ => h.opIs 0xEB && h.noRm
  | .jmpRel16 h _ => h.opIs 0xE9 && h.noRm
  | .jmpFar h _ _ => h.opIs 0xEA && h.noRm
  | .jmpRm h => h.opIs 0xFF && h.hasDigit 4
  | .jmpFarRm h => h.opIs 0xFF && h.hasDigit 5
  | .callRel h _ => h.opIs 0xE8 && h.noRm
  | .callFar h _ _ => h.opIs 0x9A && h.noRm
  | .callRm h => h.opIs 0xFF && h.hasDigit 2
  | .callFarRm h => h.opIs 0xFF && h.hasDigit 3
  | .ret h => h.opIs 0xC3 && h.noRm
  | .retImm h _ => h.opIs 0xC2 && h.noRm
  | .retf h => h.opIs 0xCB && h.noRm
  | .retfImm h _ => h.opIs 0xCA && h.noRm
  | .iret h => h.opIs 0xCF && h.noRm
  | .loopnz h _ => h.opIs 0xE0 && h.noRm
  | .loopz h _ => h.opIs 0xE1 && h.noRm
  | .loop h _ => h.opIs 0xE2 && h.noRm
  | .jcxz h _ => h.opIs 0xE3 && h.noRm
  | .movs h => h.opIn 0xA4 0xA5 && h.noRm
  | .stos h => h.opIn 0xAA 0xAB && h.noRm
  | .lods h => h.opIn 0xAC 0xAD && h.noRm
  | .cmps h => h.opIn 0xA6 0xA7 && h.noRm
  | .scas h => h.opIn 0xAE 0xAF && h.noRm
  | .pushReg h => h.opIn 0x50 0x57 && h.noRm
  | .pushSreg h r => h.opIs (sregOp r 0x06) && h.noRm
  | .pushRm h => h.opIs 0xFF && h.hasDigit 6
  | .popReg h => h.opIn 0x58 0x5F && h.noRm
  | .popSreg h r => h.opIs (sregOp r 0x07) && r != .cs && h.noRm
  | .popRm h => h.opIs 0x8F && h.hasDigit 0
  | .pushf h => h.opIs 0x9C && h.noRm
  | .popf h => h.opIs 0x9D && h.noRm
  | .clc h => h.opIs 0xF8 && h.noRm
  | .stc h => h.opIs 0xF9 && h.noRm
  | .cli h => h.opIs 0xFA && h.noRm
  | .sti h => h.opIs 0xFB && h.noRm
  | .cld h => h.opIs 0xFC && h.noRm
  | .std h => h.opIs 0xFD && h.noRm
  | .cmc h => h.opIs 0xF5 && h.noRm
  | .lahf h => h.opIs 0x9F && h.noRm
  | .sahf h => h.opIs 0x9E && h.noRm
  | .inImm h _ => h.opIn 0xE4 0xE5 && h.noRm
  | .inDx h => h.opIn 0xEC 0xED && h.noRm
  | .outImm h _ => h.opIn 0xE6 0xE7 && h.noRm
  | .outDx h => h.opIn 0xEE 0xEF && h.noRm
  | .seg h r => h.opIs (sregOp r 0x26) && h.noRm
  | .repnz h => h.opIs 0xF2 && h.noRm
  | .repz h => h.opIs 0xF3 && h.noRm
  | .int3 h => h.opIs 0xCC && h.noRm
  | .int h _ => h.opIs 0xCD && h.noRm
  | .into h => h.opIs 0xCE && h.noRm
  | .hlt h => h.opIs 0xF4 && h.noRm
  | .reservedOpcode h => h.isReservedByte && h.noRm
  | .reservedWait h => h.opIs 0x9B && h.noRm
  | .reservedLock h => h.opIs 0xF0 && h.noRm
  | .reservedEsc h => h.opIn 0xD8 0xDF && h.noRm
  | .reservedMember h => h.isReservedMember

end Sys2Proof
end

