-- ==== Sys2Proof/Decode.lean ====
section
/-! DEFINITION. The decoder (30_encoding.md R90 to R97, R101, R110, R111, R119, R130, R131): total on every fetch window and
every table contents, a reserved encoding decoding to one of the `reserved` instructions; and the encoder. -/

namespace Sys2Proof

/-- The fetch window `B0 .. B5` (30_encoding.md R90). -/
structure Window where
  b0 : Byte
  b1 : Byte
  b2 : Byte
  b3 : Byte
  b4 : Byte
  b5 : Byte
deriving DecidableEq, Repr

/-- Byte `B[i]` of the window. No operand byte lies beyond `B5` (R99), so the last case is never read. -/
def Window.at (x : Window) (i : Nat) : Byte :=
  match i with
  | 0 => x.b0
  | 1 => x.b1
  | 2 => x.b2
  | 3 => x.b3
  | 4 => x.b4
  | 5 => x.b5
  | _ => 0

/-- `B[i] | B[i+1] << 8`. -/
def Window.word (x : Window) (i : Nat) : Word := mkWord (x.at i) (x.at (i + 1))

/-- The window that starts with these bytes, zeros after them. -/
def Window.ofBytes (bs : List Byte) : Window where
  b0 := bs.getD 0 0
  b1 := bs.getD 1 0
  b2 := bs.getD 2 0
  b3 := bs.getD 3 0
  b4 := bs.getD 4 0
  b5 := bs.getD 5 0

/-- The six bytes of a window, `B0` first. -/
def Window.toBytes (x : Window) : List Byte := [x.b0, x.b1, x.b2, x.b3, x.b4, x.b5]

/-- The immediate of width `w` whose first byte is `B[i]`, a single byte extended with zeros (R110). -/
def Window.imm (x : Window) (w : Width) (i : Nat) : Word :=
  match w with
  | .byte => mkWord (x.at i) 0
  | .word => x.word i

/-- The operand of the fields `mod` and `rm`, with its displacement at `B2` (R94, R101). -/
def decodeEa (x : Window) : RM :=
  let rm := rmField x.b1
  match (modField x.b1).toNat with
  | 0 => if rm = 6 then .direct (x.word 2) else .mem rm
  | 1 => .mem8 rm x.b2
  | 2 => .mem16 rm (x.word 2)
  | _ => .reg rm

/-- Steps 2 and 3 of a pass, as far as they read bytes (R91, R94): a ModRM byte is there when `I_MOD_SIZE[B0] > 0`. -/
def decodeHead (T : Tables) (x : Window) : Head where
  op := x.b0
  modrm := if lookup T.iModSize x.b0 = 0 then none else some ⟨regField x.b1, decodeEa x⟩

/-- A class number that has a handler (R119). -/
def hasHandler (cls : Nat) : Bool := decide (cls ≤ 49) && cls != 43 && cls != 48

/-- Step 2 of a pass for a class without handler (R131): no ModRM byte is decoded (60_exceptions.md R353). -/
def decodeNoHandler (op : Byte) : Instr :=
  if op = 0x9B then .reservedWait ⟨op, none⟩
  else if op = 0xF0 then .reservedLock ⟨op, none⟩
  else if 0xD8 ≤ op ∧ op ≤ 0xDF then .reservedEsc ⟨op, none⟩
  else .reservedOpcode ⟨op, none⟩

/-- Class 0: the sixteen conditional jumps, named by the condition number `B0[3:1]` and the inversion `B0[0]`
(43_control_transfer.md R230 to R246). -/
def decodeJcc (h : Head) (rel : Byte) : Instr :=
  match (h.op.extractLsb' 0 4 : BitVec 4).toNat with
  | 0 => .jo h rel
  | 1 => .jno h rel
  | 2 => .jb h rel
  | 3 => .jnb h rel
  | 4 => .jz h rel
  | 5 => .jnz h rel
  | 6 => .jbe h rel
  | 7 => .jnbe h rel
  | 8 => .js h rel
  | 9 => .jns h rel
  | 10 => .jp h rel
  | 11 => .jnp h rel
  | 12 => .jl h rel
  | 13 => .jnl h rel
  | 14 => .jle h rel
  | _ => .jnle h rel

/-- Class 7: the operation `k` on the accumulator and an immediate (41_arithmetic.md R170). -/
def decodeAccImm (h : Head) (k : Nat) (imm : Word) : Instr :=
  match k with
  | 0 => .addAccImm h imm
  | 1 => .orAccImm h imm
  | 2 => .adcAccImm h imm
  | 3 => .sbbAccImm h imm
  | 4 => .andAccImm h imm
  | 5 => .subAccImm h imm
  | 6 => .xorAccImm h imm
  | 7 => .cmpAccImm h imm
  | _ => .reservedMember h

/-- Class 8: the operation of the `/digit` on `r/m` and an immediate (R130). -/
def decodeRmImm (h : Head) (imm : Word) : Instr :=
  match h.digit with
  | some 0 => .addRmImm h imm
  | some 1 => .orRmImm h imm
  | some 2 => .adcRmImm h imm
  | some 3 => .sbbRmImm h imm
  | some 4 => .andRmImm h imm
  | some 5 => .subRmImm h imm
  | some 6 => .xorRmImm h imm
  | some 7 => .cmpRmImm h imm
  | _ => .reservedMember h

/-- Class 9: the operation `k` on `r/m` and a register, or MOV (41_arithmetic.md R170; 40_data_movement.md R141). -/
def decodeRmReg (h : Head) (k : Nat) : Instr :=
  match k with
  | 0 => .addRmReg h
  | 1 => .orRmReg h
  | 2 => .adcRmReg h
  | 3 => .sbbRmReg h
  | 4 => .andRmReg h
  | 5 => .subRmReg h
  | 6 => .xorRmReg h
  | 7 => .cmpRmReg h
  | 8 => .movRmReg h
  | _ => .reservedMember h

/-- Class 5: the group FE, FF (R130). FE has `/0` and `/1` only (R131). That `B0[0]` tells the two apart also where other
tables give the class to another byte is the model's choice (notes/assumptions/33.md). -/
def decodeGroupFe (h : Head) : Instr :=
  match h.digit, h.op.getLsbD 0 with
  | some 0, _ => .incRm h
  | some 1, _ => .decRm h
  | some 2, true => .callRm h
  | some 3, true => .callFarRm h
  | some 4, true => .jmpRm h
  | some 5, true => .jmpFarRm h
  | some 6, true => .pushRm h
  | _, _ => .reservedMember h

/-- Class 6: the group F6, F7 (R130). -/
def decodeGroupF6 (h : Head) (imm : Word) : Instr :=
  match h.digit with
  | some 0 => .testRmImm h imm
  | some 2 => .not h
  | some 3 => .neg h
  | some 4 => .mul h
  | some 5 => .imul h
  | some 6 => .div h
  | some 7 => .idiv h
  | _ => .reservedMember h

/-- Class 10: MOV r/m,sreg; LEA; MOV sreg,r/m; POP r/m (R119, R130). -/
def decodeGroup8c (h : Head) (sub : Nat) : Instr :=
  match sub, h.digit with
  | 0, some d => if d < 4 then .movRmSreg h else .reservedMember h
  | 1, _ => .lea h
  | 2, some d => if d < 4 then .movSregRm h else .reservedMember h
  | 3, some 0 => .popRm h
  | _, _ => .reservedMember h

/-- Class 12: shifts and rotates, with subfunction 0 by 1 and with subfunction 1 by CL (R119; 42_logical.md R206). -/
def decodeShift (h : Head) (sub : Nat) : Instr :=
  match sub, h.digit with
  | 0, some 0 => .rolOne h
  | 0, some 1 => .rorOne h
  | 0, some 2 => .rclOne h
  | 0, some 3 => .rcrOne h
  | 0, some 4 => .shlOne h
  | 0, some 5 => .shrOne h
  | 0, some 7 => .sarOne h
  | 1, some 0 => .rolCl h
  | 1, some 1 => .rorCl h
  | 1, some 2 => .rclCl h
  | 1, some 3 => .rcrCl h
  | 1, some 4 => .shlCl h
  | 1, some 5 => .shrCl h
  | 1, some 7 => .sarCl h
  | _, _ => .reservedMember h

/-- Class 46: CLC, STC, CLI, STI, CLD, STD by the flag cell and the value `B0[0]` (46_flag_ops.md R310 to R315). -/
def decodeFlagOp (h : Head) (sub : Nat) : Instr :=
  match sub, h.op.getLsbD 0 with
  | 0, false => .clc h
  | 0, true => .stc h
  | 9, false => .cli h
  | 9, true => .sti h
  | 10, false => .cld h
  | 10, true => .std h
  | _, _ => .reservedMember h

/-- Classes 25 and 27: the segment register whose register number is the subfunction, 8 to 11 (R119). -/
def decodeSreg (h : Head) (sub : Nat) (f : SReg → Instr) : Instr :=
  match sub with
  | 8 => f .es
  | 9 => f .cs
  | 10 => f .ss
  | 11 => f .ds
  | _ => .reservedMember h

/-- Class 26: as class 25 without CS (45_stack.md R295). -/
def decodePopSreg (h : Head) (sub : Nat) : Instr :=
  match sub with
  | 8 => .popSreg h .es
  | 10 => .popSreg h .ss
  | 11 => .popSreg h .ds
  | _ => .reservedMember h

/-- The instruction of a class whose members the subfunctions 0, 1, 2, … name in order (R119). -/
def decodeMember (h : Head) (sub : Nat) (members : List Instr) : Instr := members.getD sub (.reservedMember h)

/-- Where the bytes behind the opcode byte, the ModRM byte and its displacement start: the immediate of a format with a
ModRM byte stands there (R110). -/
def Head.immAt (h : Head) : Nat :=
  match h.modrm with
  | some m => 2 + m.ea.dispBytes
  | none => 1

/-- The instruction of a class with a handler and a subfunction (R119, R129, R130). Branch displacements, addresses and
pointers stand at `B1` (R111), the immediates of `RM_IMM` (classes 6, 8 and 20) behind the displacement, all other
immediates at `B1` (R110). That an immediate of a class whose format has no ModRM byte stays at `B1` also where other tables
give the opcode one is the model's choice (notes/assumptions/30.md). -/
def decodeClass (h : Head) (cls sub : Nat) (x : Window) : Instr :=
  let behindRm := h.immAt
  let single := decodeMember h sub
  match cls with
  | 0 => if sub = 0 then decodeJcc h x.b1 else .reservedMember h
  | 1 => single [.movRegImm h (x.imm h.width 1)]
  | 2 => single [.incReg h, .decReg h]
  | 3 => single [.pushReg h]
  | 4 => single [.popReg h]
  | 5 => if sub = 0 then decodeGroupFe h else .reservedMember h
  | 6 => if sub = 0 then decodeGroupF6 h (x.imm h.width behindRm) else .reservedMember h
  | 7 => decodeAccImm h sub (x.imm h.width 1)
  | 8 => if sub = 0 then decodeRmImm h (x.imm h.aluImmWidth behindRm) else .reservedMember h
  | 9 => decodeRmReg h sub
  | 10 => decodeGroup8c h sub
  | 11 => single [.movMoffs h (x.word 1)]
  | 12 => decodeShift h sub
  | 13 => single [.loopnz h x.b1, .loopz h x.b1, .loop h x.b1, .jcxz h x.b1]
  | 14 => single [.callRel h (x.word 1), .jmpRel16 h (x.word 1), .jmpFar h (x.word 1) (x.word 3),
      .jmpRel8 h x.b1]
  | 15 => single [.testRmReg h]
  | 16 => single [if h.opReg = 0 then .nop h else .xchgAx h]
  | 17 => single [.movs h, .stos h, .lods h]
  | 18 => single [.cmps h, .scas h]
  | 19 => single [.retImm h (x.word 1), .ret h, .retfImm h (x.word 1), .retf h, .iret h]
  | 20 => if sub = 0 ∧ h.digit = some 0 then .movRmImm h (x.imm h.width behindRm) else .reservedMember h
  | 21 => single [.inImm h x.b1, .inDx h]
  | 22 => single [.outImm h x.b1, .outDx h]
  | 23 => single [.repnz h, .repz h]
  | 24 => single [.xchgRmReg h]
  | 25 => decodeSreg h sub (.pushSreg h)
  | 26 => decodePopSreg h sub
  | 27 => decodeSreg h sub (.seg h)
  | 28 => single [.daa h, .das h]
  | 29 => single [.aaa h, .aas h]
  | 30 => single [.cbw h]
  | 31 => single [.cwd h]
  | 32 => single [.callFar h (x.word 1) (x.word 3)]
  | 33 => single [.pushf h]
  | 34 => single [.popf h]
  | 35 => single [.sahf h]
  | 36 => single [.lahf h]
  | 37 => single [.les h, .lds h]
  | 38 => single [.int3 h]
  | 39 => single [.int h x.b1]
  | 40 => single [.into h]
  | 41 => single [.aam h x.b1]
  | 42 => single [.aad h x.b1]
  | 44 => single [.xlat h]
  | 45 => single [.cmc h]
  | 46 => decodeFlagOp h sub
  | 47 => single [.testAccImm h (x.imm h.width 1)]
  | 49 => single [.hlt h]
  | _ => decodeNoHandler h.op

/-- The decoder: classification by the tables (R92), then the fields of the instruction. It is total: a reserved
encoding decodes to the `reserved` instruction that faults (R131). -/
def decode (T : Tables) (x : Window) : Instr :=
  let cls := (lookup T.xlatOpcode x.b0).toNat
  if hasHandler cls then decodeClass (decodeHead T x) cls (lookup T.xlatSubfunction x.b0).toNat x
  else decodeNoHandler x.b0

/-- The fields `mod` and `rm` of an operand (R101, R102). -/
def RM.fields : RM → BitVec 2 × BitVec 3
  | .reg rm => (3, rm)
  | .mem rm => (0, rm)
  | .direct _ => (0, 6)
  | .mem8 rm _ => (1, rm)
  | .mem16 rm _ => (2, rm)

/-- A word as an instruction stores it, low byte first (20_memory.md R66). -/
def wordBytes (v : Word) : List Byte := [loByte v, hiByte v]

/-- The displacement bytes of an operand (R101). -/
def RM.dispList : RM → List Byte
  | .reg _ | .mem _ => []
  | .direct d => wordBytes d
  | .mem8 _ d => [d]
  | .mem16 _ d => wordBytes d

/-- The opcode byte, the ModRM byte if there is one, and its displacement. -/
def encodeHead (h : Head) : List Byte :=
  match h.modrm with
  | none => [h.op]
  | some m => [h.op, modrmByte m.ea.fields.1 m.reg m.ea.fields.2] ++ m.ea.dispList

/-- An immediate of width `w` (R110). -/
def immBytes (w : Width) (imm : Word) : List Byte :=
  match w with
  | .byte => [loByte imm]
  | .word => wordBytes imm

/-- The operand bytes that follow the head: immediates, branch displacements, addresses, pointers (R110, R111). -/
def Instr.tail : Instr → List Byte
  | .addAccImm h imm | .orAccImm h imm | .adcAccImm h imm | .sbbAccImm h imm | .andAccImm h imm | .subAccImm h imm
  | .xorAccImm h imm | .cmpAccImm h imm | .movRegImm h imm | .movRmImm h imm | .testAccImm h imm
  | .testRmImm h imm => immBytes h.width imm
  | .addRmImm h imm | .orRmImm h imm | .adcRmImm h imm | .sbbRmImm h imm | .andRmImm h imm | .subRmImm h imm
  | .xorRmImm h imm | .cmpRmImm h imm => immBytes h.aluImmWidth imm
  | .movMoffs _ v | .jmpRel16 _ v | .callRel _ v | .retImm _ v | .retfImm _ v => wordBytes v
  | .aam _ b | .aad _ b | .int _ b | .inImm _ b | .outImm _ b | .jo _ b | .jno _ b | .jb _ b | .jnb _ b | .jz _ b
  | .jnz _ b | .jbe _ b | .jnbe _ b | .js _ b | .jns _ b | .jp _ b | .jnp _ b | .jl _ b | .jnl _ b | .jle _ b
  | .jnle _ b | .jmpRel8 _ b | .loopnz _ b | .loopz _ b | .loop _ b | .jcxz _ b => [b]
  | .jmpFar _ off sg | .callFar _ off sg => wordBytes off ++ wordBytes sg
  | .addRmReg _ | .orRmReg _ | .adcRmReg _ | .sbbRmReg _ | .andRmReg _ | .subRmReg _ | .xorRmReg _ | .cmpRmReg _
  | .movRmReg _ | .movRmSreg _ | .movSregRm _ | .xchgRmReg _ | .xchgAx _ | .nop _ | .lea _ | .les _ | .lds _ | .xlat _
  | .cbw _ | .cwd _ | .incReg _ | .incRm _ | .decReg _ | .decRm _ | .neg _ | .mul _ | .imul _ | .div _ | .idiv _
  | .daa _ | .das _ | .aaa _ | .aas _ | .not _ | .testRmReg _ | .rolOne _ | .rolCl _ | .rorOne _ | .rorCl _ | .rclOne _
  | .rclCl _ | .rcrOne _ | .rcrCl _ | .shlOne _ | .shlCl _ | .shrOne _ | .shrCl _ | .sarOne _ | .sarCl _ | .jmpRm _
  | .jmpFarRm _ | .callRm _ | .callFarRm _ | .ret _ | .retf _ | .iret _ | .movs _ | .stos _ | .lods _ | .cmps _
  | .scas _ | .pushReg _ | .pushSreg _ _ | .pushRm _ | .popReg _ | .popSreg _ _ | .popRm _ | .pushf _ | .popf _ | .clc _
  | .stc _ | .cli _ | .sti _ | .cld _ | .std _ | .cmc _ | .lahf _ | .sahf _ | .inDx _ | .outDx _ | .seg _ _ | .repnz _
  | .repz _ | .int3 _ | .into _ | .hlt _ | .reservedOpcode _ | .reservedWait _ | .reservedLock _ | .reservedEsc _
  | .reservedMember _ => []

/-- The head of an instruction. -/
def Instr.head : Instr → Head
  | .addRmReg h | .addAccImm h _ | .addRmImm h _ | .orRmReg h | .orAccImm h _ | .orRmImm h _ | .adcRmReg h
  | .adcAccImm h _ | .adcRmImm h _ | .sbbRmReg h | .sbbAccImm h _ | .sbbRmImm h _ | .andRmReg h | .andAccImm h _
  | .andRmImm h _ | .subRmReg h | .subAccImm h _ | .subRmImm h _ | .xorRmReg h | .xorAccImm h _ | .xorRmImm h _
  | .cmpRmReg h | .cmpAccImm h _ | .cmpRmImm h _ | .movRmReg h | .movRegImm h _ | .movRmImm h _ | .movMoffs h _
  | .movRmSreg h | .movSregRm h | .xchgRmReg h | .xchgAx h | .nop h | .lea h | .les h | .lds h | .xlat h | .cbw h
  | .cwd h | .incReg h | .incRm h | .decReg h | .decRm h | .neg h | .mul h | .imul h | .div h | .idiv h | .daa h
  | .das h | .aaa h | .aas h | .aam h _ | .aad h _ | .not h | .testRmReg h | .testAccImm h _ | .testRmImm h _
  | .rolOne h | .rolCl h | .rorOne h | .rorCl h | .rclOne h | .rclCl h | .rcrOne h | .rcrCl h | .shlOne h
  | .shlCl h | .shrOne h | .shrCl h | .sarOne h | .sarCl h | .jo h _ | .jno h _ | .jb h _ | .jnb h _ | .jz h _
  | .jnz h _ | .jbe h _ | .jnbe h _ | .js h _ | .jns h _ | .jp h _ | .jnp h _ | .jl h _ | .jnl h _ | .jle h _
  | .jnle h _ | .jmpRel8 h _ | .jmpRel16 h _ | .jmpFar h _ _ | .jmpRm h | .jmpFarRm h | .callRel h _
  | .callFar h _ _ | .callRm h | .callFarRm h | .ret h | .retImm h _ | .retf h | .retfImm h _ | .iret h
  | .loopnz h _ | .loopz h _ | .loop h _ | .jcxz h _ | .movs h | .stos h | .lods h | .cmps h | .scas h | .pushReg h
  | .pushSreg h _ | .pushRm h | .popReg h | .popSreg h _ | .popRm h | .pushf h | .popf h | .clc h | .stc h | .cli h
  | .sti h | .cld h | .std h | .cmc h | .lahf h | .sahf h | .inImm h _ | .inDx h | .outImm h _ | .outDx h
  | .seg h _ | .repnz h | .repz h | .int3 h | .int h _ | .into h | .hlt h | .reservedOpcode h | .reservedWait h
  | .reservedLock h | .reservedEsc h | .reservedMember h => h

/-- The encoder: the bytes of an instruction, the opcode byte first (R93). -/
def encode (i : Instr) : List Byte := encodeHead i.head ++ i.tail

/-- The bytes that a table word of `nbits` bits stands for: spec/opcode_table.json numbers `B0` in bits 15:8 and `B1` in
bits 7:0 of its word (R133); a longer row would go on with further 16-bit words. Zeros follow. See
notes/assumptions/19.md. -/
def tableBytes (nbits w : Nat) : List Byte :=
  if nbits ≤ 8 then [BitVec.ofNat 8 (if w < 256 then w else w / 256)]
  else [BitVec.ofNat 8 (w / 2 ^ 8), BitVec.ofNat 8 w, BitVec.ofNat 8 (w / 2 ^ 24), BitVec.ofNat 8 (w / 2 ^ 16),
    BitVec.ofNat 8 (w / 2 ^ 40), BitVec.ofNat 8 (w / 2 ^ 32)]

/-- The instruction the decoder reads from an opcode-table word, with the tables `T_REF`. -/
def decodeTableWord (nbits w : Nat) : Option Instr := some (decode tRef (Window.ofBytes (tableBytes nbits w)))

end Sys2Proof
end

