-- ==== Sys2Proof/Config.lean ====
section
/-! DEFINITION. What is fixed for the machine (00_scope.md R6), the defaults of its parameters (R7), and its one free
value (93_implementation_defined.md U1). -/

namespace Sys2Proof

/-- The nine named flag cells (10_state.md R30). -/
inductive FlagName where
  | cf | pf | af | zf | sf | tf | ief | df | of
deriving DecidableEq, Repr

end Sys2Proof

namespace Sys2Proof.Config

/-- `MEM_SIZE` (20_memory.md R61): addresses 0 to 0x10FFFF exist. -/
def memSize : Nat := 0x110000

/-- Reset CS (10_state.md R46). -/
def resetCs : Word := 0xF000

/-- Reset IP (10_state.md R46). -/
def resetIp : Word := 0x0100

/-- Default of the parameter `STUB_VECTORS` (R7): no vector is a stub. -/
def defaultStubVectors : List Byte := []

/-- Default of the parameter `stop_req` (R7): never true. -/
def defaultStopAt : Option Nat := none

/-- The free draw of a flag that has no defined value after an instruction (93_implementation_defined.md U1, decision
D21): one bit for each execution (the pass count) and each flag. It has no body, so nothing can be proved of it. See
notes/assumptions/5.md. -/
opaque freeFlag : Nat → FlagName → Bool

end Sys2Proof.Config
end

