-- ==== Sys2Proof/Machine/Memory.lean ====
section
/-! DEFINITION. The byte memory (20_memory.md R60, R61, R64 to R66), the physical address (R62), and what an address that
nothing has written reads as: the reference image of 70_reset_and_hazards.md R395 (notes/assumptions/7.md). -/

namespace Sys2Proof.Machine

/-- The pointer of table `i` in the reference image, relative to 0xF0000 (70_reset_and_hazards.md R395). -/
def imagePointer (i : Nat) : Word :=
  if i < 15 then BitVec.ofNat 16 (0x0200 + 0x100 * i) else BitVec.ofNat 16 (0x1100 + 8 * (i - 15))

/-- The reference image of 70_reset_and_hazards.md R395 (92_eei_decisions.md D34): `JMP short` over the pointers at
0xF0100, the twenty pointers, and the tables `T_REF` where they point; zero elsewhere. -/
def imageByte (a : Nat) : Byte :=
  if a < 0xF0100 then 0
  else if a = 0xF0100 then 0xEB
  else if a = 0xF0101 then 0x28
  else if a < 0xF012A then
    let p := imagePointer ((a - 0xF0102) / 2)
    if (a - 0xF0102) % 2 = 0 then loByte p else hiByte p
  else if a < 0xF0200 then 0
  else if a < 0xF1100 then lookup (tRef.byIndex ((a - 0xF0200) / 256)) (BitVec.ofNat 8 (a - 0xF0200))
  else if a < 0xF1120 then lookup8 (tRef.condByIndex ((a - 0xF1100) / 8)) (BitVec.ofNat 3 (a - 0xF1100))
  else if a < 0xF112A then tRef.flagsBitfields.toList.getD (a - 0xF1120) 0
  else 0

/-- What an address that no cell lists reads as. -/
def unlistedByte (a : Nat) : Byte := imageByte a

/-- Memory in one canonical form (`Memory.wf`): the bytes that differ from `unlistedByte`, addresses strictly rising. -/
abbrev Memory := List Host.Cell

/-- The byte at an address (20_memory.md R64). -/
def Memory.read (m : Memory) (a : Nat) : Byte :=
  match m with
  | [] => unlistedByte a
  | (k, v) :: rest => if k = a then v else Memory.read rest a

/-- The cells at other addresses. -/
def Memory.remove (m : Memory) (a : Nat) : Memory := m.filter fun c => c.1 != a

/-- A cell put at its place in the rising order. -/
def Memory.place (m : Memory) (a : Nat) (v : Byte) : Memory :=
  match m with
  | [] => [(a, v)]
  | (k, u) :: rest => if a < k then (a, v) :: (k, u) :: rest else (k, u) :: Memory.place rest a v

/-- A store of one byte (20_memory.md R65). Writing what an unlisted address reads as removes the cell. -/
def Memory.write (m : Memory) (a : Nat) (v : Byte) : Memory :=
  if v = unlistedByte a then m.remove a else (m.remove a).place a v

/-- The canonical form: strictly rising addresses below `MEM_SIZE`, no cell that says what is unlisted. -/
def Memory.wf (m : Memory) : Bool :=
  decide (m.Pairwise fun c d => c.1 < d.1) && m.all fun c => decide (c.1 < Config.memSize) && c.2 != unlistedByte c.1

/-- `MemRead(a, 2)`: little-endian, the second byte at the next physical address (20_memory.md R64). -/
def Memory.readWord (m : Memory) (a : Nat) : Word := mkWord (m.read a) (m.read (a + 1))

/-- `MemWrite(a, 2, v)` (20_memory.md R65). -/
def Memory.writeWord (m : Memory) (a : Nat) (v : Word) : Memory := (m.write a (loByte v)).write (a + 1) (hiByte v)

/-- `MemRead(a, w + 1)` as an unsigned number. -/
def Memory.readW (m : Memory) (w : Width) (a : Nat) : Nat :=
  match w with
  | .byte => (m.read a).toNat
  | .word => (m.readWord a).toNat

/-- `MemWrite(a, w + 1, v)`: the low `W` bits of `v`. -/
def Memory.writeW (m : Memory) (w : Width) (a : Nat) (v : Nat) : Memory :=
  match w with
  | .byte => m.write a (BitVec.ofNat 8 v)
  | .word => m.writeWord a (BitVec.ofNat 16 v)

/-- Bytes stored at consecutive addresses. -/
def Memory.writeBytes (m : Memory) (a : Nat) (bs : List Byte) : Memory :=
  match bs with
  | [] => m
  | b :: rest => Memory.writeBytes (m.write a b) (a + 1) rest

/-- `phys(S, off) = (S << 4) + off`, not reduced (20_memory.md R62). -/
def phys (seg off : Word) : Nat := seg.toNat * 16 + off.toNat

end Sys2Proof.Machine
end

