-- ==== Sys2Proof/Machine/State.lean ====
section
/-! DEFINITION. The state of the machine (10_state.md R20 to R46), its reset value, and the closed types of the reasons a
step could stop with. -/

namespace Sys2Proof.Machine

/-- The nine named flag cells (10_state.md R30). The cells 1, 3, 5, 12 to 15 are hard-wired 0 (R32) and have no storage. -/
structure Flags where
  cf : Bool
  pf : Bool
  af : Bool
  zf : Bool
  sf : Bool
  tf : Bool
  ief : Bool
  df : Bool
  of : Bool
deriving DecidableEq, Repr

/-- `rep_mode` (10_state.md R39): 0 is `repnz`, 1 is `repz`. -/
inductive RepMode where
  | repnz
  | repz
deriving DecidableEq, Repr

/-- `run_state` (10_state.md R41). -/
inductive RunState where
  | running
  | halted
  | faulted
  | stopped
deriving DecidableEq, Repr

/-- The fault kinds (60_exceptions.md R350). -/
inductive FaultKind where
  | unimplementedOpcode
  | unknownOperandShape
  | valueOutOfRange
  | configurationError
  | divideError
deriving DecidableEq, Repr

/-- The reason field of a fault record (10_state.md R42). -/
inductive FaultReason where
  | noHandler
  | stub
deriving DecidableEq, Repr

/-- What a fault record says of the instruction: `B0`, its class and subfunction, and where it stands (10_state.md R42). -/
structure FaultSite where
  opcode : Byte
  xlatId : Byte
  subfunction : Byte
  cs : Word
  ip : Word
deriving DecidableEq, Repr

/-- `fault_record` (10_state.md R42; 60_exceptions.md R351). `site` is absent for `configurationError`, which records its
kind only (R350). -/
structure FaultRecord where
  kind : FaultKind
  reason : Option FaultReason
  site : Option FaultSite
  vector : Option Byte
deriving DecidableEq, Repr

/-- The state of the machine: the registers (10_state.md R21, R28, R29), the flags (R30), the prefix latches (R38, R39),
the decode tables (R40), the run state and the fault record (R41, R42), memory (20_memory.md R60), and the parameters of
00_scope.md R7 with the pass count of 60_exceptions.md R366. -/
structure State where
  ax : Word
  cx : Word
  dx : Word
  bx : Word
  sp : Word
  bp : Word
  si : Word
  di : Word
  es : Word
  cs : Word
  ss : Word
  ds : Word
  ip : Word
  flags : Flags
  /-- `seg_cnt` (R38). -/
  segCnt : Nat
  /-- `seg_sel` (R38). -/
  segSel : SReg
  /-- `rep_cnt` (R39). -/
  repCnt : Nat
  repMode : RepMode
  tables : Tables
  runState : RunState
  /-- `fault_record`, empty until a fault (R42). -/
  faultRecord : Option FaultRecord
  mem : Memory
  /-- How many passes have completed (60_exceptions.md R366; 70_reset_and_hazards.md R402). The model also draws the free
  flags of an instruction with it (notes/assumptions/5.md). -/
  passes : Nat
  /-- `stop_req` (60_exceptions.md R366): the pass count from which it is true; `none` is never (notes/assumptions/4.md). -/
  stopAt : Option Nat
  /-- `STUB_VECTORS` (00_scope.md R7). -/
  stubVectors : List Byte
deriving DecidableEq, Repr

/-- Why a step could stop outside the machine's own fault states. The faults of the spec are next states of this machine
(notes/assumptions/1.md), and every address it forms exists (20_memory.md R61). -/
inductive Fault where
  /-- An access beyond `MEM_SIZE`. Nobody raises it: no address is out of range (20_memory.md R61). Safe. -/
  | outsideMemory (addr : Nat)
deriving DecidableEq, Repr

/-- Why the model could decline an instruction. -/
inductive Refusal where
  /-- An arm of `exec` that is not modelled yet, by mnemonic. Nobody raises it: every instruction has its meaning. Safe. -/
  | notModelled (mnemonic : String)
deriving DecidableEq, Repr

/-- All nine flags 0 (10_state.md R46). -/
def Flags.zero : Flags where
  cf := false
  pf := false
  af := false
  zf := false
  sf := false
  tf := false
  ief := false
  df := false
  of := false

/-- The machine right after reset (10_state.md R46; 70_reset_and_hazards.md R390, R393): CS:IP = F000:0100, every other
register, flag and latch 0, the tables `T_REF` loaded, running, no fault recorded, memory with nothing listed, and the
default parameters of 00_scope.md R7. -/
def State.reset : State where
  ax := 0
  cx := 0
  dx := 0
  bx := 0
  sp := 0
  bp := 0
  si := 0
  di := 0
  es := 0
  cs := Config.resetCs
  ss := 0
  ds := 0
  ip := Config.resetIp
  flags := Flags.zero
  segCnt := 0
  segSel := .ds
  repCnt := 0
  repMode := .repnz
  tables := tRef
  runState := .running
  faultRecord := none
  mem := []
  passes := 0
  stopAt := Config.defaultStopAt
  stubVectors := Config.defaultStubVectors

end Sys2Proof.Machine
end

