-- ==== Sys2Proof/Machine/Flags.lean ====
section
/-! DEFINITION. The flag cells and the flags word (10_state.md R30 to R33), the flag logic (R34 to R37) and the flag-update
policy (30_encoding.md R115). -/

namespace Sys2Proof.Machine

/-- The cell with index `i`; a reserved cell reads 0 (10_state.md R30, R32). -/
def Flags.cell (f : Flags) (i : Nat) : Bool :=
  match i with
  | 0 => f.cf
  | 2 => f.pf
  | 4 => f.af
  | 6 => f.zf
  | 7 => f.sf
  | 8 => f.tf
  | 9 => f.ief
  | 10 => f.df
  | 11 => f.of
  | _ => false

/-- A write of the cell with index `i`; a reserved cell keeps its 0 (10_state.md R31, R32). -/
def Flags.setCell (f : Flags) (i : Nat) (v : Bool) : Flags :=
  match i with
  | 0 => { f with cf := v }
  | 2 => { f with pf := v }
  | 4 => { f with af := v }
  | 6 => { f with zf := v }
  | 7 => { f with sf := v }
  | 8 => { f with tf := v }
  | 9 => { f with ief := v }
  | 10 => { f with df := v }
  | 11 => { f with of := v }
  | _ => f

/-- The cells 7 to 0 of the flags, as a byte: what LAHF stores (10_state.md R33; 46_flag_ops.md R317). -/
def Flags.lowByte (f : Flags) : Byte :=
  BitVec.ofBool f.sf ++ BitVec.ofBool f.zf ++ (0 : BitVec 1) ++ BitVec.ofBool f.af ++ (0 : BitVec 1) ++ BitVec.ofBool f.pf
    ++ (0 : BitVec 1) ++ BitVec.ofBool f.cf

/-- The cells 15 to 8 of the flags, as a byte (10_state.md R33). -/
def Flags.highByte (f : Flags) : Byte :=
  (0 : BitVec 4) ++ BitVec.ofBool f.of ++ BitVec.ofBool f.df ++ BitVec.ofBool f.ief ++ BitVec.ofBool f.tf

/-- `FLAGS_WORD`: bit `i` is cell `i` (10_state.md R33). -/
def Flags.word (f : Flags) : Word := mkWord f.lowByte f.highByte

/-- `FLAGS_WORD <- v`: the nine named cells take their bits, the other bits are ignored (10_state.md R33). -/
def Flags.ofWord (v : Word) : Flags where
  cf := v.getLsbD 0
  pf := v.getLsbD 2
  af := v.getLsbD 4
  zf := v.getLsbD 6
  sf := v.getLsbD 7
  tf := v.getLsbD 8
  ief := v.getLsbD 9
  df := v.getLsbD 10
  of := v.getLsbD 11

/-- The five low flags taken from a byte: what SAHF writes (46_flag_ops.md R318). -/
def Flags.loadLow (f : Flags) (v : Byte) : Flags :=
  { f with
    cf := v.getLsbD 0, pf := v.getLsbD 2, af := v.getLsbD 4, zf := v.getLsbD 6, sf := v.getLsbD 7 }

/-- The triple a handler records for the flag policy (41_arithmetic.md R170), each below `2^W`. -/
structure Triple where
  src : Nat
  dest : Nat
  result : Nat
deriving DecidableEq, Repr

/-- Bit `TOP` of a `W`-bit value (00_scope.md R8). -/
def topBit (w : Width) (v : Nat) : Bool := v.testBit (w.bits - 1)

/-- `PARITY_FLAG[result & 0xFF]` (10_state.md R34); an entry other than 0 is true (notes/assumptions/12.md). -/
def parityOf (T : Tables) (v : Nat) : Bool := lookup T.parityFlag (BitVec.ofNat 8 v) != 0

/-- Policy SZP (10_state.md R34). -/
def Flags.szp (T : Tables) (w : Width) (v : Nat) (f : Flags) : Flags :=
  { f with sf := topBit w v, zf := decide (v % 2 ^ w.bits = 0), pf := parityOf T v }

/-- `x` of 10_state.md R35: bit `i` is the carry or borrow into bit `i`. -/
def Triple.carries (t : Triple) : Nat := t.dest ^^^ t.result ^^^ t.src

/-- Policy ARITH, with CF already written (10_state.md R35). -/
def Flags.arith (w : Width) (t : Triple) (f : Flags) : Flags :=
  { f with
    af := t.carries.testBit 4
    of := if t.result = t.dest then false else f.cf ^^ topBit w t.carries }

/-- Policy LOGIC (10_state.md R36). -/
def Flags.logic (f : Flags) : Flags := { f with cf := false, of := false }

/-- The flag-update policy `p`: bit 0 SZP, bit 1 ARITH, bit 2 LOGIC, each looked at by itself (30_encoding.md R115;
notes/assumptions/11.md). -/
def Flags.policy (T : Tables) (w : Width) (p : Byte) (t : Triple) (f : Flags) : Flags :=
  let f := if p.getLsbD 0 then f.szp T w t.result else f
  let f := if p.getLsbD 1 then f.arith w t else f
  if p.getLsbD 2 then f.logic else f

/-- A policy value that a handler chooses itself (30_encoding.md R115). -/
def policySZP : Byte := 1

/-- SZP and ARITH. -/
def policySzpArith : Byte := 3

/-- SZP and LOGIC. -/
def policySzpLogic : Byte := 5

/-- The free draw of a flag in the pass that runs (93_implementation_defined.md U1; notes/assumptions/5.md). -/
def State.draw (s : State) (f : FlagName) : Bool := Config.freeFlag s.passes f

/-- SF, ZF, PF and AF drawn: MUL, IMUL (93_implementation_defined.md U1). -/
def Flags.drawMul (s : State) (f : Flags) : Flags :=
  { f with sf := s.draw .sf, zf := s.draw .zf, pf := s.draw .pf, af := s.draw .af }

/-- The six status flags drawn: DIV, IDIV (U1). -/
def Flags.drawAll (s : State) (f : Flags) : Flags :=
  { f with
    cf := s.draw .cf, pf := s.draw .pf, af := s.draw .af, zf := s.draw .zf, sf := s.draw .sf, of := s.draw .of }

/-- OF drawn: DAA, DAS, and a shift or rotate with a count above 1 (U1). -/
def Flags.drawOf (s : State) (f : Flags) : Flags := { f with of := s.draw .of }

/-- AF drawn: SHL, SHR, SAR (U1). -/
def Flags.drawAf (s : State) (f : Flags) : Flags := { f with af := s.draw .af }

/-- OF, SF, ZF and PF drawn: AAA, AAS (U1). -/
def Flags.drawAscii (s : State) (f : Flags) : Flags :=
  { f with of := s.draw .of, sf := s.draw .sf, zf := s.draw .zf, pf := s.draw .pf }

/-- OF, AF and CF drawn: AAM, AAD (U1). -/
def Flags.drawBase (s : State) (f : Flags) : Flags :=
  { f with of := s.draw .of, af := s.draw .af, cf := s.draw .cf }

/-- Policy ARITH for a handler that records no source and destination: what R35 works on is not stated, so AF and OF are
drawn (notes/assumptions/32.md). -/
def Flags.arithUnrecorded (s : State) (f : Flags) : Flags := { f with af := s.draw .af, of := s.draw .of }

/-- Policy SZP for a handler that records no result (notes/assumptions/32.md). -/
def Flags.szpUnrecorded (s : State) (f : Flags) : Flags :=
  { f with sf := s.draw .sf, zf := s.draw .zf, pf := s.draw .pf }

/-- The policy `p` of an opcode whose handler gives a result and no source and destination: DAA, DAS, AAM and AAD
(30_encoding.md R115). -/
def Flags.policyResult (s : State) (w : Width) (p : Byte) (v : Nat) (f : Flags) : Flags :=
  let f := if p.getLsbD 0 then f.szp s.tables w v else f
  let f := if p.getLsbD 1 then f.arithUnrecorded s else f
  if p.getLsbD 2 then f.logic else f

/-- The policy `p` of an opcode whose handler records nothing: 0 in `T_REF` (30_encoding.md R115). -/
def Flags.policyUnrecorded (s : State) (p : Byte) (f : Flags) : Flags :=
  let f := if p.getLsbD 0 then f.szpUnrecorded s else f
  let f := if p.getLsbD 1 then f.arithUnrecorded s else f
  if p.getLsbD 2 then f.logic else f

/-- The operations of the two-operand template, by their index `k` (41_arithmetic.md R170). -/
inductive AluOp where
  | add | or | adc | sbb | and | sub | xor | cmp
deriving DecidableEq, Repr

/-- The index `k` of an operation. -/
def AluOp.index : AluOp → Nat
  | .add => 0
  | .or => 1
  | .adc => 2
  | .sbb => 3
  | .and => 4
  | .sub => 5
  | .xor => 6
  | .cmp => 7

/-- The opcode `8k` whose policy entry the immediate group takes (30_encoding.md R114(b)). -/
def AluOp.opcode (op : AluOp) : Byte := BitVec.ofNat 8 (8 * op.index)

/-- The result of an operation on `W`-bit values (10_state.md R37; 42_logical.md R201 to R203). -/
def AluOp.result (op : AluOp) (w : Width) (dv sv : Nat) (cin : Bool) : Nat :=
  match op with
  | .add => (dv + sv) % 2 ^ w.bits
  | .adc => (dv + sv + cin.toNat) % 2 ^ w.bits
  | .sub | .cmp => narrow w ((dv : Int) - sv)
  | .sbb => narrow w ((dv : Int) - sv - cin.toNat)
  | .and => dv &&& sv
  | .or => dv ||| sv
  | .xor => dv ^^^ sv

/-- CF after an arithmetic operation (10_state.md R37); a bitwise one leaves it to policy LOGIC. -/
def AluOp.carry (op : AluOp) (w : Width) (dv sv : Nat) (cin : Bool) : Bool :=
  match op with
  | .add => decide (2 ^ w.bits ≤ dv + sv)
  | .adc => decide (2 ^ w.bits ≤ dv + sv + cin.toNat)
  | .sub | .cmp => decide (dv < sv)
  | .sbb => decide (dv < sv + cin.toNat)
  | .and | .or | .xor => cin

/-- The triple an operation records (41_arithmetic.md R170). -/
def AluOp.triple (op : AluOp) (w : Width) (dv sv : Nat) (cin : Bool) : Triple where
  src := sv
  dest := dv
  result := op.result w dv sv cin

/-- The flags after an operation with policy `p`: CF by the handler; AF and OF by the handler of ADC and SBB itself
(41_arithmetic.md R172, R174); then the policy (30_encoding.md R115). -/
def AluOp.flags (op : AluOp) (T : Tables) (w : Width) (p : Byte) (dv sv : Nat) (f : Flags) : Flags :=
  let t := op.triple w dv sv f.cf
  let f := { f with cf := op.carry w dv sv f.cf }
  let f := if op = .adc ∨ op = .sbb then f.arith w t else f
  f.policy T w p t

end Sys2Proof.Machine
end

