-- ==== Sys2Proof/Machine/Operands.lean ====
section
/-! DEFINITION. The registers and their child views (10_state.md R20 to R28), the segment rules of an access (20_memory.md
R63), the addressing resolver (30_encoding.md R100 to R109) and the operand handles. -/

namespace Sys2Proof.Machine

/-- `reg16[n]` for the register numbers 0 to 7 (10_state.md R21). -/
def State.reg16 (s : State) (n : BitVec 3) : Word :=
  match n.toNat with
  | 0 => s.ax
  | 1 => s.cx
  | 2 => s.dx
  | 3 => s.bx
  | 4 => s.sp
  | 5 => s.bp
  | 6 => s.si
  | _ => s.di

/-- `reg16[n] <- v` for the register numbers 0 to 7. -/
def State.setReg16 (s : State) (n : BitVec 3) (v : Word) : State :=
  match n.toNat with
  | 0 => { s with ax := v }
  | 1 => { s with cx := v }
  | 2 => { s with dx := v }
  | 3 => { s with bx := v }
  | 4 => { s with sp := v }
  | 5 => { s with bp := v }
  | 6 => { s with si := v }
  | _ => { s with di := v }

/-- The segment register `sreg[s]` (10_state.md R28). -/
def State.sreg (s : State) (r : SReg) : Word :=
  match r with
  | .es => s.es
  | .cs => s.cs
  | .ss => s.ss
  | .ds => s.ds

/-- `sreg[s] <- v`. -/
def State.setSreg (s : State) (r : SReg) (v : Word) : State :=
  match r with
  | .es => { s with es := v }
  | .cs => { s with cs := v }
  | .ss => { s with ss := v }
  | .ds => { s with ds := v }

/-- The parent of a byte register, `n & 3` (10_state.md R26). -/
def byteParent (n : BitVec 3) : BitVec 3 := n &&& 3

/-- Whether a byte register is the high half of its parent (10_state.md R26). -/
def byteIsHigh (n : BitVec 3) : Bool := n.getLsbD 2

/-- `reg8[n]`: resolved live off the parent (10_state.md R25). -/
def State.reg8 (s : State) (n : BitVec 3) : Byte :=
  let p := s.reg16 (byteParent n)
  if byteIsHigh n then hiByte p else loByte p

/-- `reg8[n] <- b`: the other half of the parent is kept (10_state.md R25). -/
def State.setReg8 (s : State) (n : BitVec 3) (b : Byte) : State :=
  let p := s.reg16 (byteParent n)
  s.setReg16 (byteParent n) (if byteIsHigh n then mkWord (loByte p) b else mkWord b (hiByte p))

/-- AL. -/
def State.al (s : State) : Byte := loByte s.ax

/-- AH. -/
def State.ah (s : State) : Byte := hiByte s.ax

/-- CL. -/
def State.cl (s : State) : Byte := loByte s.cx

/-- `AL <- b`. -/
def State.setAl (s : State) (b : Byte) : State := { s with ax := mkWord b (hiByte s.ax) }

/-- `AH <- b`. -/
def State.setAh (s : State) (b : Byte) : State := { s with ax := mkWord (loByte s.ax) b }

/-- `reg(n, w)` as an unsigned number (00_scope.md R9). -/
def State.reg (s : State) (w : Width) (n : BitVec 3) : Nat :=
  match w with
  | .byte => (s.reg8 n).toNat
  | .word => (s.reg16 n).toNat

/-- `reg(n, w) <- v`: the low `W` bits of `v` (10_state.md R20, R25). -/
def State.setReg (s : State) (w : Width) (n : BitVec 3) (v : Nat) : State :=
  match w with
  | .byte => s.setReg8 n (BitVec.ofNat 8 v)
  | .word => s.setReg16 n (BitVec.ofNat 16 v)

/-- The register an addressing-table entry names: 0 to 11, and 12 for ZERO; no other number is a register (10_state.md
R21, R23; 60_exceptions.md R355). -/
def State.tableReg (s : State) (n : Byte) : Option Word :=
  match n.toNat with
  | 0 => some s.ax
  | 1 => some s.cx
  | 2 => some s.dx
  | 3 => some s.bx
  | 4 => some s.sp
  | 5 => some s.bp
  | 6 => some s.si
  | 7 => some s.di
  | 8 => some s.es
  | 9 => some s.cs
  | 10 => some s.ss
  | 11 => some s.ds
  | 12 => some 0
  | _ => none

/-- The segment-override latch is active (10_state.md R38). -/
def State.segActive (s : State) : Bool := decide (0 < s.segCnt)

/-- The repeat latch is active (10_state.md R39). -/
def State.repActive (s : State) : Bool := decide (0 < s.repCnt)

/-- `ovr(D)`: the segment value an overridable access uses (20_memory.md R63). -/
def State.ovr (s : State) (d : SReg) : Word := if s.segActive then s.sreg s.segSel else s.sreg d

/-- An operand handle (30_encoding.md R109): a register of the operand's width, or memory, with its effective offset and
the physical address of its first byte. -/
inductive Operand where
  | reg (n : BitVec 3)
  | mem (ea : Word) (addr : Nat)
deriving DecidableEq, Repr

/-- `read(h, w)` (30_encoding.md R109), an unsigned number below `2^W`. -/
def State.readOp (s : State) (w : Width) (o : Operand) : Nat :=
  match o with
  | .reg n => s.reg w n
  | .mem _ a => s.mem.readW w a

/-- `write(h, w, v)` (30_encoding.md R109). -/
def State.writeOp (s : State) (w : Width) (o : Operand) (v : Nat) : State :=
  match o with
  | .reg n => s.setReg w n v
  | .mem _ a => { s with mem := s.mem.writeW w a v }

/-- The four addressing-table entries of an operand form: two registers, the multiplier, the default segment
(30_encoding.md R103 to R105). -/
structure Form where
  reg1 : Byte
  reg2 : Byte
  mult : Byte
  defseg : Byte
deriving DecidableEq, Repr

/-- Tables 4 to 7, the zero-displacement bank, used for `mod = 0` (R103). -/
def Tables.formZero (T : Tables) (rm : BitVec 3) : Form where
  reg1 := lookup T.reg1Zero (rm.setWidth 8)
  reg2 := lookup T.reg2Zero (rm.setWidth 8)
  mult := lookup T.multZero (rm.setWidth 8)
  defseg := lookup T.segZero (rm.setWidth 8)

/-- Tables 0 to 3, the displacement bank, used for `mod` 1 and 2 (R103). -/
def Tables.formDisp (T : Tables) (rm : BitVec 3) : Form where
  reg1 := lookup T.reg1Disp (rm.setWidth 8)
  reg2 := lookup T.reg2Disp (rm.setWidth 8)
  mult := lookup T.multDisp (rm.setWidth 8)
  defseg := lookup T.segDisp (rm.setWidth 8)

/-- The displacement times the multiplier, which is 0 or 1 (30_encoding.md R104; 60_exceptions.md R355). -/
def scaledDisp (mult : Byte) (disp : Word) : Option Word :=
  match mult.toNat with
  | 0 => some 0
  | 1 => some disp
  | _ => none

/-- The segment value of a memory operand: the override if one is active, else the default of the form
(30_encoding.md R106). The default-segment entry is used only in the second case (notes/assumptions/17.md). -/
def State.formSegment (s : State) (f : Form) : Option Word :=
  if s.segActive then some (s.sreg s.segSel) else s.tableReg f.defseg

/-- The memory operand of a form (30_encoding.md R104, R106), or nothing when an entry it uses is no register number or no
multiplier (60_exceptions.md R355). -/
def State.memOperand (s : State) (f : Form) (disp : Word) : Option Operand :=
  match s.tableReg f.reg1, s.tableReg f.reg2, scaledDisp f.mult disp, s.formSegment f with
  | some r1, some r2, some d, some sg => some (.mem (r1 + r2 + d) (phys sg (r1 + r2 + d)))
  | _, _, _, _ => none

/-- The handle of the fields `mod` and `rm` (30_encoding.md R101 to R107). With `mod = 0` and `rm` other than 6 the
displacement is 0, also where other tables hold a multiplier 1 for the form (notes/assumptions/31.md). -/
def State.resolveRm (s : State) (ea : RM) : Option Operand :=
  match ea with
  | .reg rm => some (.reg rm)
  | .mem rm => s.memOperand (Tables.formZero s.tables rm) 0
  | .direct disp => s.memOperand (Tables.formZero s.tables 6) disp
  | .mem8 rm disp => s.memOperand (Tables.formDisp s.tables rm) (sext disp)
  | .mem16 rm disp => s.memOperand (Tables.formDisp s.tables rm) disp

/-- What step 3 of a pass gives a handler (30_encoding.md R100, R109): the handle `RM` and the `reg` field; or a fault of
the resolver (60_exceptions.md R355); or no ModRM byte at all, for tables in which the class needs one and the opcode has
none (notes/assumptions/10.md). -/
inductive Resolution where
  | operands (rm : Operand) (reg : BitVec 3)
  | valueOutOfRange
  | noModRM
deriving DecidableEq, Repr

/-- Step 3 of a pass. -/
def State.resolve (s : State) (h : Head) : Resolution :=
  match h.modrm with
  | none => .noModRM
  | some m =>
    match s.resolveRm m.ea with
    | some o => .operands o m.reg
    | none => .valueOutOfRange

/-- `to` and `from` of 30_encoding.md R109, in this order, by the direction bit `d` (R97). -/
def direct (d : Bool) (rm : Operand) (reg : BitVec 3) : Operand × Operand :=
  if d then (.reg reg, rm) else (rm, .reg reg)

end Sys2Proof.Machine
end

