-- ==== Sys2Proof/Machine/Ops.lean ====
section
/-! DEFINITION. The operations the meanings share: memory and the stack (45_stack.md R290), the instruction length and the
end of a pass (30_encoding.md R91, R112, R113, R116), raising a fault (60_exceptions.md R351), and delivering an interrupt
(60_exceptions.md R360) with the return from it (43_control_transfer.md R260). -/

namespace Sys2Proof.Machine

/-- `MemRead(a, 2)`. -/
def State.readWord (s : State) (a : Nat) : Word := s.mem.readWord a

/-- `MemWrite(a, 2, v)`. -/
def State.writeWord (s : State) (a : Nat) (v : Word) : State := { s with mem := s.mem.writeWord a v }

/-- `push16(v)`: SP falls by 2, then the word is stored at SS:SP (45_stack.md R290). -/
def State.push (s : State) (v : Word) : State :=
  let s := { s with sp := s.sp - 2 }
  s.writeWord (phys s.ss s.sp) v

/-- The word at SS:SP, which `pop16()` returns (45_stack.md R290). -/
def State.top (s : State) : Word := s.readWord (phys s.ss s.sp)

/-- The rest of `pop16()`: SP rises by 2 (45_stack.md R290). -/
def State.drop (s : State) : State := { s with sp := s.sp + 2 }

/-- Interrupt delivery `deliver(vector, ret)` (60_exceptions.md R360): FLAGS, CS and `ret` are pushed, TF and IF cleared,
then CS and IP are read from the vector table. -/
def State.deliver (s : State) (vector : Byte) (ret : Word) : State :=
  let s := ((s.push s.flags.word).push s.cs).push ret
  let s := { s with flags := { s.flags with tf := false, ief := false } }
  { s with cs := s.readWord (vector.toNat * 4 + 2), ip := s.readWord (vector.toNat * 4) }

/-- Return from interrupt (43_control_transfer.md R260): IP, CS and the flags word are popped. -/
def State.interruptReturn (s : State) : State :=
  let s1 := s.drop
  let s2 := s1.drop
  { s2.drop with ip := s.top, cs := s1.top, flags := Flags.ofWord s2.top }

/-- `e` of 30_encoding.md R112: the opcode whose length entries the pass uses; INC and DEC of FE, FF borrow those of 0x10
(R114(a)). -/
def Head.lengthOpcode (h : Head) : Byte :=
  if (h.op = 0xFE ∨ h.op = 0xFF) ∧ (h.digit = some 0 ∨ h.digit = some 1) then 0x10 else h.op

/-- `extra` of 30_encoding.md R112: the immediate of TEST r/m,imm (R114). -/
def Head.extra (h : Head) : Nat :=
  if (h.op = 0xF6 ∨ h.op = 0xF7) ∧ h.digit = some 0 then h.width.bytes else 0

/-- `len`, the instruction length (30_encoding.md R112). -/
def instLen (T : Tables) (h : Head) : Nat :=
  let e := Head.lengthOpcode h
  let iMod := (lookup T.iModSize e).toNat
  let disp := if iMod = 0 then 0 else h.dispBytes
  (lookup T.baseInstSize e).toNat + (lookup T.iWSize e).toNat * h.width.bytes + iMod * disp + Head.extra h

/-- `next_ip = (IP + len) mod 2^16` (00_scope.md R9). -/
def State.nextIp (s : State) (h : Head) : Word := s.ip + BitVec.ofNat 16 (instLen s.tables h)

/-- Step 7 of a pass: the latch counters fall (30_encoding.md R116); the pass is counted. -/
def State.endPass (s : State) : State :=
  { s with segCnt := s.segCnt - 1, repCnt := s.repCnt - 1, passes := s.passes + 1 }

/-- What the record of a fault says of the instruction (10_state.md R42). -/
def State.faultSite (s : State) (h : Head) : FaultSite where
  opcode := h.op
  xlatId := lookup s.tables.xlatOpcode h.op
  subfunction := lookup s.tables.xlatSubfunction h.op
  cs := s.cs
  ip := s.ip

/-- `raise K(info)`: TAKING A FAULT (60_exceptions.md R351). The record is written, the engine is FAULTED, and nothing else
changes. -/
def State.raiseFault (s : State) (h : Head) (kind : FaultKind) (reason : Option FaultReason) (vector : Option Byte) :
    State :=
  { s with
    faultRecord := some ⟨kind, reason, some (s.faultSite h), vector⟩
    runState := .faulted }

/-- What a handler answers (30_encoding.md R91 step 4): it has run and IP advances by `len`; or it has run and has written
IP, which suppresses the advance (R113); or it raises a fault, before it has written anything (60_exceptions.md R352). -/
inductive Result where
  | done (s : State)
  | jump (s : State)
  | raise (kind : FaultKind) (reason : Option FaultReason) (vector : Option Byte)
deriving DecidableEq, Repr

/-- Steps 5, 7 and 8 of a pass that started in `s` (30_encoding.md R91), for what its handler and the flag policy leave. -/
def finish (h : Head) (s : State) (r : Result) : Host.Outcome State Fault Refusal :=
  match r with
  | .done t => .next (State.endPass { t with ip := s.nextIp h })
  | .jump t => .next (State.endPass t)
  | .raise kind reason vector => .next (s.raiseFault h kind reason vector)

/-- The policy entry of an opcode (30_encoding.md R115). -/
def State.stdPolicy (s : State) (op : Byte) : Byte := lookup s.tables.stdFlags op

/-- Step 6 for a handler that records nothing and leaves the flag policy to the entry of its opcode (30_encoding.md R115). That this is
the entry of `B0`, also for FE and FF with `reg` 0 or 1 under other tables, is the model's choice (notes/assumptions/34.md).
-/
def tablePolicy (h : Head) (s : State) (r : Result) : Result :=
  match r with
  | .done t => .done { t with flags := t.flags.policyUnrecorded s (s.stdPolicy h.op) }
  | .jump t => .jump { t with flags := t.flags.policyUnrecorded s (s.stdPolicy h.op) }
  | .raise kind reason vector => .raise kind reason vector

/-- Steps 3 to 8 of a pass of an instruction whose handler uses the operand of a ModRM byte (30_encoding.md R91, R100): the
handler gets the handle `RM` and the `reg` field. -/
def runRm (h : Head) (s : State) (handler : Operand → BitVec 3 → Result) : Host.Outcome State Fault Refusal :=
  match s.resolve h with
  | .operands rm reg => finish h s (handler rm reg)
  | .valueOutOfRange => finish h s (.raise .valueOutOfRange none none)
  | .noModRM => finish h s (.raise .unknownOperandShape none none)

/-- Steps 3 to 8 of a pass of any other instruction. The resolver runs whenever the tables give the opcode a ModRM byte
(30_encoding.md R100), so its fault comes before the handler (60_exceptions.md R359). -/
def run (h : Head) (s : State) (handler : Result) : Host.Outcome State Fault Refusal :=
  match s.resolve h with
  | .valueOutOfRange => finish h s (.raise .valueOutOfRange none none)
  | .operands _ _ | .noModRM => finish h s handler

/-- `runRm` for a handler that leaves the flag policy to the table. -/
def runRmTable (h : Head) (s : State) (handler : Operand → BitVec 3 → Result) : Host.Outcome State Fault Refusal :=
  runRm h s fun rm reg => tablePolicy h s (handler rm reg)

/-- `run` for a handler that leaves the flag policy to the table. -/
def runTable (h : Head) (s : State) (handler : Result) : Host.Outcome State Fault Refusal :=
  run h s (tablePolicy h s handler)

/-- The handler of an encoding or an instruction that no handler covers (60_exceptions.md R353). -/
def noHandler : Result := .raise .unimplementedOpcode (some .noHandler) none

/-- A handler that is a stub (60_exceptions.md R350). -/
def stubHandler (vector : Option Byte) : Result := .raise .unimplementedOpcode (some .stub) vector

/-- A handler whose operand has to be in memory, applied to its effective offset and address (60_exceptions.md R354). -/
def withMemory (o : Operand) (f : Word → Nat → Result) : Result :=
  match o with
  | .mem ea a => f ea a
  | .reg _ => .raise .unknownOperandShape none none

/-- The two-operand template (41_arithmetic.md R170): `dest` and the value `sv` of the source are combined, the result is
written except by CMP, and the flags follow policy `p`. -/
def State.alu (s : State) (op : AluOp) (w : Width) (p : Byte) (dest : Operand) (sv : Nat) : State :=
  let dv := s.readOp w dest
  let t := if op = .cmp then s else s.writeOp w dest (op.result w dv sv s.flags.cf)
  { t with flags := op.flags s.tables w p dv sv s.flags }

/-- TEST (42_logical.md R205): the flags of `a & b`, nothing written back. -/
def State.test (s : State) (w : Width) (p : Byte) (a b : Nat) : State :=
  { s with flags := s.flags.policy s.tables w p ⟨b, a, a &&& b⟩ }

end Sys2Proof.Machine
end

