-- ==== Sys2Proof/Machine/Arithmetic.lean ====
section
/-! DEFINITION. The arithmetic instructions (41_arithmetic.md R170 to R188). -/

namespace Sys2Proof.Machine

/-- ADD r/m,reg and reg,r/m (R171, by the template of 41_arithmetic.md R170). -/
def execAddRmReg (h : Head) (s : State) : Host.Outcome State Fault Refusal :=
  runRm h s fun rm reg =>
    .done (s.alu .add h.width (s.stdPolicy h.op) (direct h.dir rm reg).1 (s.readOp h.width (direct h.dir rm reg).2))

/-- ADD accumulator,imm (R171). -/
def execAddAccImm (h : Head) (imm : Word) (s : State) : Host.Outcome State Fault Refusal :=
  run h s (.done (s.alu .add h.width (s.stdPolicy h.op) (.reg 0) (immValue h.width imm)))

/-- ADD r/m,imm (R171), with the policy entry of the same operation in its RM_REG form (30_encoding.md R114(b)). -/
def execAddRmImm (h : Head) (imm : Word) (s : State) : Host.Outcome State Fault Refusal :=
  runRm h s fun rm _ =>
    .done (s.alu .add h.width (s.stdPolicy (AluOp.opcode .add)) rm (Head.aluImm h imm))

/-- ADC r/m,reg and reg,r/m (R172, by the template of 41_arithmetic.md R170). -/
def execAdcRmReg (h : Head) (s : State) : Host.Outcome State Fault Refusal :=
  runRm h s fun rm reg =>
    .done (s.alu .adc h.width (s.stdPolicy h.op) (direct h.dir rm reg).1 (s.readOp h.width (direct h.dir rm reg).2))

/-- ADC accumulator,imm (R172). -/
def execAdcAccImm (h : Head) (imm : Word) (s : State) : Host.Outcome State Fault Refusal :=
  run h s (.done (s.alu .adc h.width (s.stdPolicy h.op) (.reg 0) (immValue h.width imm)))

/-- ADC r/m,imm (R172), with the policy entry of the same operation in its RM_REG form (30_encoding.md R114(b)). -/
def execAdcRmImm (h : Head) (imm : Word) (s : State) : Host.Outcome State Fault Refusal :=
  runRm h s fun rm _ =>
    .done (s.alu .adc h.width (s.stdPolicy (AluOp.opcode .adc)) rm (Head.aluImm h imm))

/-- SUB r/m,reg and reg,r/m (R173, by the template of 41_arithmetic.md R170). -/
def execSubRmReg (h : Head) (s : State) : Host.Outcome State Fault Refusal :=
  runRm h s fun rm reg =>
    .done (s.alu .sub h.width (s.stdPolicy h.op) (direct h.dir rm reg).1 (s.readOp h.width (direct h.dir rm reg).2))

/-- SUB accumulator,imm (R173). -/
def execSubAccImm (h : Head) (imm : Word) (s : State) : Host.Outcome State Fault Refusal :=
  run h s (.done (s.alu .sub h.width (s.stdPolicy h.op) (.reg 0) (immValue h.width imm)))

/-- SUB r/m,imm (R173), with the policy entry of the same operation in its RM_REG form (30_encoding.md R114(b)). -/
def execSubRmImm (h : Head) (imm : Word) (s : State) : Host.Outcome State Fault Refusal :=
  runRm h s fun rm _ =>
    .done (s.alu .sub h.width (s.stdPolicy (AluOp.opcode .sub)) rm (Head.aluImm h imm))

/-- SBB r/m,reg and reg,r/m (R174, by the template of 41_arithmetic.md R170). -/
def execSbbRmReg (h : Head) (s : State) : Host.Outcome State Fault Refusal :=
  runRm h s fun rm reg =>
    .done (s.alu .sbb h.width (s.stdPolicy h.op) (direct h.dir rm reg).1 (s.readOp h.width (direct h.dir rm reg).2))

/-- SBB accumulator,imm (R174). -/
def execSbbAccImm (h : Head) (imm : Word) (s : State) : Host.Outcome State Fault Refusal :=
  run h s (.done (s.alu .sbb h.width (s.stdPolicy h.op) (.reg 0) (immValue h.width imm)))

/-- SBB r/m,imm (R174), with the policy entry of the same operation in its RM_REG form (30_encoding.md R114(b)). -/
def execSbbRmImm (h : Head) (imm : Word) (s : State) : Host.Outcome State Fault Refusal :=
  runRm h s fun rm _ =>
    .done (s.alu .sbb h.width (s.stdPolicy (AluOp.opcode .sbb)) rm (Head.aluImm h imm))

/-- CMP r/m,reg and reg,r/m (R175, by the template of 41_arithmetic.md R170). -/
def execCmpRmReg (h : Head) (s : State) : Host.Outcome State Fault Refusal :=
  runRm h s fun rm reg =>
    .done (s.alu .cmp h.width (s.stdPolicy h.op) (direct h.dir rm reg).1 (s.readOp h.width (direct h.dir rm reg).2))

/-- CMP accumulator,imm (R175). -/
def execCmpAccImm (h : Head) (imm : Word) (s : State) : Host.Outcome State Fault Refusal :=
  run h s (.done (s.alu .cmp h.width (s.stdPolicy h.op) (.reg 0) (immValue h.width imm)))

/-- CMP r/m,imm (R175), with the policy entry of the same operation in its RM_REG form (30_encoding.md R114(b)). -/
def execCmpRmImm (h : Head) (imm : Word) (s : State) : Host.Outcome State Fault Refusal :=
  runRm h s fun rm _ =>
    .done (s.alu .cmp h.width (s.stdPolicy (AluOp.opcode .cmp)) rm (Head.aluImm h imm))

/-- INC and DEC of an operand (R176, R177): AF and OF by the handler, CF not changed, then policy `p`.
That the recorded source is 1 is deduced from the formula of AF (notes/assumptions/35.md). -/
def State.incDec (s : State) (w : Width) (p : Byte) (o : Operand) (inc : Bool) : State :=
  let dv := s.readOp w o
  let result := if inc then (dv + 1) % 2 ^ w.bits else narrow w ((dv : Int) - 1)
  let overflow := if inc then decide (dv = 2 ^ (w.bits - 1) - 1) else decide (dv = 2 ^ (w.bits - 1))
  let f := { s.flags with af := (dv ^^^ result ^^^ 1).testBit 4, of := overflow }
  { s.writeOp w o result with flags := f.policy s.tables w p ⟨1, dv, result⟩ }

/-- INC r16 (R176). -/
def execIncReg (h : Head) (s : State) : Host.Outcome State Fault Refusal :=
  run h s (.done (s.incDec .word (s.stdPolicy h.op) (.reg h.opReg) true))

/-- INC r/m (R176), with the policy entry of opcode 0x10 (30_encoding.md R114(a)). -/
def execIncRm (h : Head) (s : State) : Host.Outcome State Fault Refusal :=
  runRm h s fun rm _ => .done (s.incDec h.width (s.stdPolicy (Head.lengthOpcode h)) rm true)

/-- DEC r16 (R177). -/
def execDecReg (h : Head) (s : State) : Host.Outcome State Fault Refusal :=
  run h s (.done (s.incDec .word (s.stdPolicy h.op) (.reg h.opReg) false))

/-- DEC r/m (R177), with the policy entry of opcode 0x10 (30_encoding.md R114(a)). -/
def execDecRm (h : Head) (s : State) : Host.Outcome State Fault Refusal :=
  runRm h s fun rm _ => .done (s.incDec h.width (s.stdPolicy (Head.lengthOpcode h)) rm false)

/-- NEG (R178): SUB from 0, with the policy entry of opcode 0x28 (30_encoding.md R115). -/
def State.negate (s : State) (w : Width) (o : Operand) : State :=
  let sv := s.readOp w o
  let result := narrow w (-(sv : Int))
  let f := { s.flags with cf := decide (sv ≠ 0) }
  { s.writeOp w o result with flags := f.policy s.tables w (s.stdPolicy 0x28) ⟨sv, 0, result⟩ }

/-- NEG r/m (R178). -/
def execNeg (h : Head) (s : State) : Host.Outcome State Fault Refusal :=
  runRm h s fun rm _ => .done (s.negate h.width rm)

/-- A product, modulo `2^(2W)`, put into AX or DX:AX (R179, R180). -/
def State.setProduct (s : State) (w : Width) (p : Nat) : State :=
  match w with
  | .byte => { s with ax := BitVec.ofNat 16 p }
  | .word => { s with ax := BitVec.ofNat 16 p, dx := BitVec.ofNat 16 (p / 2 ^ 16) }

/-- The flags of a multiplication (R179, R180): CF and OF say that the high half matters, the other four are drawn. -/
def State.mulFlags (s : State) (ovf : Bool) : Flags := ({ s.flags with cf := ovf, of := ovf } : Flags).drawMul s

/-- MUL (R179). -/
def State.multiply (s : State) (w : Width) (v : Nat) : State :=
  let p := s.reg w 0 * v
  { s.setProduct w p with flags := s.mulFlags (decide (p / 2 ^ w.bits ≠ 0)) }

/-- MUL r/m (R179). -/
def execMul (h : Head) (s : State) : Host.Outcome State Fault Refusal :=
  runRmTable h s fun rm _ => .done (s.multiply h.width (s.readOp h.width rm))

/-- IMUL (R180): the signed product. -/
def State.multiplySigned (s : State) (w : Width) (v : Nat) : State :=
  let p := signedOf w (s.reg w 0) * signedOf w v
  { s.setProduct w (p % (2 ^ (2 * w.bits) : Nat)).toNat with
    flags := s.mulFlags (decide (p ≠ signedOf w (narrow w p))) }

/-- IMUL r/m (R180). -/
def execImul (h : Head) (s : State) : Host.Outcome State Fault Refusal :=
  runRmTable h s fun rm _ => .done (s.multiplySigned h.width (s.readOp h.width rm))

/-- The dividend: AX for a byte division, DX:AX for a word division (R181). -/
def State.dividend (s : State) (w : Width) : Nat :=
  match w with
  | .byte => s.ax.toNat
  | .word => s.dx.toNat * 2 ^ 16 + s.ax.toNat

/-- The dividend as a signed number (R182). -/
def State.dividendSigned (s : State) (w : Width) : Int :=
  let n := s.dividend w
  if n < 2 ^ (2 * w.bits - 1) then (n : Int) else (n : Int) - (2 ^ (2 * w.bits) : Nat)

/-- Quotient and remainder put into AL and AH, or AX and DX, and the six status flags drawn (R181, R182). -/
def State.setQuotient (s : State) (w : Width) (q r : Nat) : State :=
  match w with
  | .byte => { s with ax := mkWord (BitVec.ofNat 8 q) (BitVec.ofNat 8 r), flags := s.flags.drawAll s }
  | .word => { s with ax := BitVec.ofNat 16 q, dx := BitVec.ofNat 16 r, flags := s.flags.drawAll s }

/-- The fault of a division (60_exceptions.md R356). -/
def divideFault : Result := .raise .divideError none none

/-- DIV (R181). -/
def State.divide (s : State) (w : Width) (v : Nat) : Result :=
  if v = 0 then divideFault
  else if 2 ^ w.bits ≤ s.dividend w / v then divideFault
  else .done (s.setQuotient w (s.dividend w / v) (s.dividend w % v))

/-- DIV r/m (R181). -/
def execDiv (h : Head) (s : State) : Host.Outcome State Fault Refusal :=
  runRmTable h s fun rm _ => s.divide h.width (s.readOp h.width rm)

/-- IDIV (R182): the quotient rounded toward zero, its range symmetric. -/
def State.divideSigned (s : State) (w : Width) (v : Nat) : Result :=
  let d := signedOf w v
  let q := (s.dividendSigned w).tdiv d
  let r := s.dividendSigned w - q * d
  let max : Int := 2 ^ (w.bits - 1) - 1
  if d = 0 then divideFault
  else if max < q ∨ q < -max then divideFault
  else .done (s.setQuotient w (narrow w q) (narrow w r))

/-- IDIV r/m (R182). -/
def execIdiv (h : Head) (s : State) : Host.Outcome State Fault Refusal :=
  runRmTable h s fun rm _ => s.divideSigned h.width (s.readOp h.width rm)

/-- The low digit of AL needs an adjustment (R183 to R186). -/
def State.lowDigit (s : State) : Bool := decide (9 < s.al.toNat % 16) || s.flags.af

/-- The high digit of AL needs an adjustment (R183, R184), judged on AL and CF before the instruction. -/
def State.highDigit (s : State) : Bool := decide (0x99 < s.al.toNat) || s.flags.cf

/-- DAA (R183). -/
def State.decimalAdd (s : State) (p : Byte) : State :=
  let a1 := if s.lowDigit then s.al + 6 else s.al
  let a2 := if s.highDigit then a1 + 0x60 else a1
  let f := ({ s.flags with af := s.lowDigit, cf := s.highDigit } : Flags).drawOf s
  { s.setAl a2 with flags := f.policyResult s .byte p a2.toNat }

/-- DAA (R183). -/
def execDaa (h : Head) (s : State) : Host.Outcome State Fault Refusal :=
  run h s (.done (s.decimalAdd (s.stdPolicy h.op)))

/-- DAS (R184). -/
def State.decimalSub (s : State) (p : Byte) : State :=
  let a1 := if s.lowDigit then s.al - 6 else s.al
  let borrow := s.lowDigit && (s.flags.cf || decide (s.al.toNat < 6))
  let a2 := if s.highDigit then a1 - 0x60 else a1
  let f := ({ s.flags with af := s.lowDigit, cf := s.highDigit || borrow } : Flags).drawOf s
  { s.setAl a2 with flags := f.policyResult s .byte p a2.toNat }

/-- DAS (R184). -/
def execDas (h : Head) (s : State) : Host.Outcome State Fault Refusal :=
  run h s (.done (s.decimalSub (s.stdPolicy h.op)))

/-- AAA and AAS (R185, R186): AL and AH are adjusted as two separate bytes by `al` and `ah`. -/
def State.asciiAdjust (s : State) (al ah : Byte) : State :=
  let adjusted := if s.lowDigit then (s.setAl (s.al + al)).setAh (s.ah + ah) else s
  let f := ({ s.flags with af := s.lowDigit, cf := s.lowDigit } : Flags).drawAscii s
  { adjusted.setAl (adjusted.al &&& 0x0F) with flags := f }

/-- AAA (R185). -/
def execAaa (h : Head) (s : State) : Host.Outcome State Fault Refusal := runTable h s (.done (s.asciiAdjust 6 1))

/-- AAS (R186). -/
def execAas (h : Head) (s : State) : Host.Outcome State Fault Refusal := runTable h s (.done (s.asciiAdjust (-6) (-1)))

/-- AL and AH replaced, OF, AF and CF drawn, then policy `p` on the new AL (R187, R188). -/
def State.setBcd (s : State) (p : Byte) (al ah : Byte) : State :=
  { s with
    ax := mkWord al ah
    flags := (s.flags.drawBase s).policyResult s .byte p al.toNat }

/-- AAM imm8 (R187). -/
def execAam (h : Head) (imm : Byte) (s : State) : Host.Outcome State Fault Refusal :=
  run h s
    (if imm = 0 then divideFault
     else .done (s.setBcd (s.stdPolicy h.op) (BitVec.ofNat 8 (s.al.toNat % imm.toNat))
       (BitVec.ofNat 8 (s.al.toNat / imm.toNat))))

/-- AAD imm8 (R188). -/
def execAad (h : Head) (imm : Byte) (s : State) : Host.Outcome State Fault Refusal :=
  run h s (.done (s.setBcd (s.stdPolicy h.op) (s.al + s.ah * imm) 0))

end Sys2Proof.Machine
end

