-- ==== Sys2Proof/Machine/Control.lean ====
section
/-! DEFINITION. The control transfer instructions (43_control_transfer.md R230 to R264). -/

namespace Sys2Proof.Machine

/-- A relative target: `next_ip` plus a displacement, within the segment (R230(a)). -/
def State.target (s : State) (h : Head) (disp : Word) : Word := s.nextIp h + disp

/-- `FLAGS[i]` for a table entry `i`; an index above 15 is no cell (60_exceptions.md R357). -/
def Flags.tableCell (f : Flags) (i : Byte) : Option Bool := if i.toNat ≤ 15 then some (f.cell i.toNat) else none

/-- `cond` of R230(g): the four entries of condition number `c`, every one of them used (notes/assumptions/16.md). -/
def condition (T : Tables) (f : Flags) (c : BitVec 3) : Option Bool :=
  match f.tableCell (lookup8 T.condA c), f.tableCell (lookup8 T.condB c), f.tableCell (lookup8 T.condC c),
      f.tableCell (lookup8 T.condD c) with
  | some a, some b, some c, some d => some (a || b || (c ^^ d))
  | _, _, _, _ => none

/-- A jump to a relative target if `taken`, else the generic advance. -/
def State.jumpIf (s : State) (h : Head) (taken : Bool) (rel : Byte) : Result :=
  if taken then .jump { s with ip := s.target h (sext rel) } else .done s

/-- A conditional jump (R230(g)): the condition number is `B0[3:1]`, the inversion `B0[0]`. -/
def State.condJump (s : State) (h : Head) (rel : Byte) : Result :=
  match condition s.tables s.flags (h.op.extractLsb' 1 3) with
  | some b => s.jumpIf h (b ^^ h.op.getLsbD 0) rel
  | none => .raise .valueOutOfRange none none

/-- JO (R231): with the tables `T_REF`, taken on OF. -/
def execJo (h : Head) (rel : Byte) (s : State) : Host.Outcome State Fault Refusal := runTable h s (s.condJump h rel)

/-- JNO (R232): with the tables `T_REF`, taken on not OF. -/
def execJno (h : Head) (rel : Byte) (s : State) : Host.Outcome State Fault Refusal := runTable h s (s.condJump h rel)

/-- JB (R233): with the tables `T_REF`, taken on CF. -/
def execJb (h : Head) (rel : Byte) (s : State) : Host.Outcome State Fault Refusal := runTable h s (s.condJump h rel)

/-- JNB (R234): with the tables `T_REF`, taken on not CF. -/
def execJnb (h : Head) (rel : Byte) (s : State) : Host.Outcome State Fault Refusal := runTable h s (s.condJump h rel)

/-- JZ (R235): with the tables `T_REF`, taken on ZF. -/
def execJz (h : Head) (rel : Byte) (s : State) : Host.Outcome State Fault Refusal := runTable h s (s.condJump h rel)

/-- JNZ (R236): with the tables `T_REF`, taken on not ZF. -/
def execJnz (h : Head) (rel : Byte) (s : State) : Host.Outcome State Fault Refusal := runTable h s (s.condJump h rel)

/-- JBE (R237): with the tables `T_REF`, taken on CF or ZF. -/
def execJbe (h : Head) (rel : Byte) (s : State) : Host.Outcome State Fault Refusal := runTable h s (s.condJump h rel)

/-- JNBE (R238): with the tables `T_REF`, taken on neither CF nor ZF. -/
def execJnbe (h : Head) (rel : Byte) (s : State) : Host.Outcome State Fault Refusal := runTable h s (s.condJump h rel)

/-- JS (R239): with the tables `T_REF`, taken on SF. -/
def execJs (h : Head) (rel : Byte) (s : State) : Host.Outcome State Fault Refusal := runTable h s (s.condJump h rel)

/-- JNS (R240): with the tables `T_REF`, taken on not SF. -/
def execJns (h : Head) (rel : Byte) (s : State) : Host.Outcome State Fault Refusal := runTable h s (s.condJump h rel)

/-- JP (R241): with the tables `T_REF`, taken on PF. -/
def execJp (h : Head) (rel : Byte) (s : State) : Host.Outcome State Fault Refusal := runTable h s (s.condJump h rel)

/-- JNP (R242): with the tables `T_REF`, taken on not PF. -/
def execJnp (h : Head) (rel : Byte) (s : State) : Host.Outcome State Fault Refusal := runTable h s (s.condJump h rel)

/-- JL (R243): with the tables `T_REF`, taken on SF xor OF. -/
def execJl (h : Head) (rel : Byte) (s : State) : Host.Outcome State Fault Refusal := runTable h s (s.condJump h rel)

/-- JNL (R244): with the tables `T_REF`, taken on not (SF xor OF). -/
def execJnl (h : Head) (rel : Byte) (s : State) : Host.Outcome State Fault Refusal := runTable h s (s.condJump h rel)

/-- JLE (R245): with the tables `T_REF`, taken on ZF or (SF xor OF). -/
def execJle (h : Head) (rel : Byte) (s : State) : Host.Outcome State Fault Refusal := runTable h s (s.condJump h rel)

/-- JNLE (R246): with the tables `T_REF`, taken on not (ZF or (SF xor OF)). -/
def execJnle (h : Head) (rel : Byte) (s : State) : Host.Outcome State Fault Refusal := runTable h s (s.condJump h rel)

/-- JMP rel8 (R247). -/
def execJmpRel8 (h : Head) (rel : Byte) (s : State) : Host.Outcome State Fault Refusal :=
  runTable h s (.jump { s with ip := s.target h (sext rel) })

/-- JMP rel16 (R248). -/
def execJmpRel16 (h : Head) (rel : Word) (s : State) : Host.Outcome State Fault Refusal :=
  runTable h s (.jump { s with ip := s.target h rel })

/-- JMP ptr16:16 (R249). -/
def execJmpFar (h : Head) (off seg : Word) (s : State) : Host.Outcome State Fault Refusal :=
  runTable h s (.jump { s with ip := off, cs := seg })

/-- JMP r/m16 (R250). -/
def execJmpRm (h : Head) (s : State) : Host.Outcome State Fault Refusal :=
  runRmTable h s fun rm _ => .jump { s with ip := BitVec.ofNat 16 (s.readOp .word rm) }

/-- JMP m16:16 (R251). -/
def execJmpFarRm (h : Head) (s : State) : Host.Outcome State Fault Refusal :=
  runRmTable h s fun rm _ => withMemory rm fun _ a => .jump { s with ip := s.readWord a, cs := s.readWord (a + 2) }

/-- CALL rel16 (R252). -/
def execCallRel (h : Head) (rel : Word) (s : State) : Host.Outcome State Fault Refusal :=
  runTable h s (.jump { s.push (s.nextIp h) with ip := s.target h rel })

/-- CALL ptr16:16 (R253). -/
def execCallFar (h : Head) (off seg : Word) (s : State) : Host.Outcome State Fault Refusal :=
  runTable h s (.jump { (s.push s.cs).push (s.nextIp h) with ip := off, cs := seg })

/-- CALL r/m16 (R254): the target is read before the push. -/
def execCallRm (h : Head) (s : State) : Host.Outcome State Fault Refusal :=
  runRmTable h s fun rm _ => .jump { s.push (s.nextIp h) with ip := BitVec.ofNat 16 (s.readOp .word rm) }

/-- CALL m16:16 (R255): both words are read before the pushes. -/
def execCallFarRm (h : Head) (s : State) : Host.Outcome State Fault Refusal :=
  runRmTable h s fun rm _ => withMemory rm fun _ a =>
    .jump { (s.push s.cs).push (s.nextIp h) with ip := s.readWord a, cs := s.readWord (a + 2) }

/-- RET (R256). -/
def execRet (h : Head) (s : State) : Host.Outcome State Fault Refusal :=
  runTable h s (.jump { s.drop with ip := s.top })

/-- RET imm16 (R257). -/
def execRetImm (h : Head) (imm : Word) (s : State) : Host.Outcome State Fault Refusal :=
  runTable h s (.jump { s.drop with ip := s.top, sp := s.drop.sp + imm })

/-- RETF (R258). -/
def execRetf (h : Head) (s : State) : Host.Outcome State Fault Refusal :=
  runTable h s (.jump { s.drop.drop with ip := s.top, cs := s.drop.top })

/-- RETF imm16 (R259). -/
def execRetfImm (h : Head) (imm : Word) (s : State) : Host.Outcome State Fault Refusal :=
  runTable h s (.jump { s.drop.drop with ip := s.top, cs := s.drop.top, sp := s.drop.drop.sp + imm })

/-- IRET (R260). -/
def execIret (h : Head) (s : State) : Host.Outcome State Fault Refusal := runTable h s (.jump s.interruptReturn)

/-- The part LOOP, LOOPZ and LOOPNZ share (R261 to R263): CX falls by 1, and the jump is taken if it is then not 0 and
`also` holds. -/
def State.loopJump (s : State) (h : Head) (also : Bool) (rel : Byte) : Result :=
  let t := { s with cx := s.cx - 1 }
  t.jumpIf h (t.cx != 0 && also) rel

/-- LOOPNZ (R263). -/
def execLoopnz (h : Head) (rel : Byte) (s : State) : Host.Outcome State Fault Refusal :=
  runTable h s (s.loopJump h (!s.flags.zf) rel)

/-- LOOPZ (R262). -/
def execLoopz (h : Head) (rel : Byte) (s : State) : Host.Outcome State Fault Refusal :=
  runTable h s (s.loopJump h s.flags.zf rel)

/-- LOOP (R261). -/
def execLoop (h : Head) (rel : Byte) (s : State) : Host.Outcome State Fault Refusal :=
  runTable h s (s.loopJump h true rel)

/-- JCXZ (R264). -/
def execJcxz (h : Head) (rel : Byte) (s : State) : Host.Outcome State Fault Refusal :=
  runTable h s (s.jumpIf h (s.cx == 0) rel)

end Sys2Proof.Machine
end

