-- ==== Sys2Proof/Machine/DataMovement.lean ====
section
/-! DEFINITION. The data movement instructions (40_data_movement.md R140 to R155). -/

namespace Sys2Proof.Machine

/-- MOV r/m,reg and MOV reg,r/m (R141): `write(to, w, read(from, w))`. -/
def execMovRmReg (h : Head) (s : State) : Host.Outcome State Fault Refusal :=
  runRmTable h s fun rm reg =>
    .done (s.writeOp h.width (direct h.dir rm reg).1 (s.readOp h.width (direct h.dir rm reg).2))

/-- MOV reg,imm (R142). -/
def execMovRegImm (h : Head) (imm : Word) (s : State) : Host.Outcome State Fault Refusal :=
  runTable h s (.done (s.setReg h.width h.opReg (immValue h.width imm)))

/-- MOV r/m,imm (R143). -/
def execMovRmImm (h : Head) (imm : Word) (s : State) : Host.Outcome State Fault Refusal :=
  runRmTable h s fun rm _ => .done (s.writeOp h.width rm (immValue h.width imm))

/-- MOV accumulator,direct offset, and its store form for `B0[1] = 1` (R144). -/
def execMovMoffs (h : Head) (addr : Word) (s : State) : Host.Outcome State Fault Refusal :=
  let a := phys (s.ovr .ds) addr
  runTable h s (.done
    (if h.dir then { s with mem := s.mem.writeW h.width a (s.reg h.width 0) }
     else s.setReg h.width 0 (s.mem.readW h.width a)))

/-- MOV r/m16,sreg (R145). -/
def execMovRmSreg (h : Head) (s : State) : Host.Outcome State Fault Refusal :=
  runRmTable h s fun rm reg => .done (s.writeOp .word rm (s.sreg (SReg.ofNumber (reg.setWidth 2))).toNat)

/-- MOV sreg,r/m16 (R146). -/
def execMovSregRm (h : Head) (s : State) : Host.Outcome State Fault Refusal :=
  runRmTable h s fun rm reg => .done (s.setSreg (SReg.ofNumber (reg.setWidth 2)) (BitVec.ofNat 16 (s.readOp .word rm)))

/-- XCHG r/m,reg (R147). -/
def execXchgRmReg (h : Head) (s : State) : Host.Outcome State Fault Refusal :=
  runRmTable h s fun rm reg =>
    .done ((s.writeOp h.width rm (s.reg h.width reg)).setReg h.width reg (s.readOp h.width rm))

/-- XCHG AX,r16 (R148). -/
def execXchgAx (h : Head) (s : State) : Host.Outcome State Fault Refusal :=
  runTable h s (.done ({ s with ax := s.reg16 h.opReg }.setReg16 h.opReg s.ax))

/-- NOP (R149). -/
def execNop (h : Head) (s : State) : Host.Outcome State Fault Refusal := runTable h s (.done s)

/-- LEA r16,m (R150): the effective offset, no memory read. -/
def execLea (h : Head) (s : State) : Host.Outcome State Fault Refusal :=
  runRmTable h s fun rm reg => withMemory rm fun ea _ => .done (s.setReg16 reg ea)

/-- LES r16,m16:16 (R151). -/
def execLes (h : Head) (s : State) : Host.Outcome State Fault Refusal :=
  runRmTable h s fun rm reg => withMemory rm fun _ a =>
    .done ((s.setReg16 reg (s.readWord a)).setSreg .es (s.readWord (a + 2)))

/-- LDS r16,m16:16 (R152). -/
def execLds (h : Head) (s : State) : Host.Outcome State Fault Refusal :=
  runRmTable h s fun rm reg => withMemory rm fun _ a =>
    .done ((s.setReg16 reg (s.readWord a)).setSreg .ds (s.readWord (a + 2)))

/-- XLAT (R153). -/
def execXlat (h : Head) (s : State) : Host.Outcome State Fault Refusal :=
  runTable h s (.done (s.setAl (s.mem.read (phys (s.ovr .ds) (s.bx + s.al.setWidth 16)))))

/-- CBW (R154): `AX <- sext_16(AL)`. -/
def execCbw (h : Head) (s : State) : Host.Outcome State Fault Refusal := runTable h s (.done { s with ax := sext s.al })

/-- CWD (R155). -/
def execCwd (h : Head) (s : State) : Host.Outcome State Fault Refusal :=
  runTable h s (.done { s with dx := if s.ax.getLsbD 15 then 0xFFFF else 0x0000 })

end Sys2Proof.Machine
end

