-- ==== Sys2Proof/Machine/FlagOps.lean ====
section
/-! DEFINITION. The flag instructions (46_flag_ops.md R310 to R318). -/

namespace Sys2Proof.Machine

/-- One flag cell written. -/
def State.setFlag (s : State) (i : Nat) (v : Bool) : State := { s with flags := s.flags.setCell i v }

/-- CLC (R310). -/
def execClc (h : Head) (s : State) : Host.Outcome State Fault Refusal := runTable h s (.done (s.setFlag 0 false))

/-- STC (R311). -/
def execStc (h : Head) (s : State) : Host.Outcome State Fault Refusal := runTable h s (.done (s.setFlag 0 true))

/-- CLI (R312). -/
def execCli (h : Head) (s : State) : Host.Outcome State Fault Refusal := runTable h s (.done (s.setFlag 9 false))

/-- STI (R313). -/
def execSti (h : Head) (s : State) : Host.Outcome State Fault Refusal := runTable h s (.done (s.setFlag 9 true))

/-- CLD (R314). -/
def execCld (h : Head) (s : State) : Host.Outcome State Fault Refusal := runTable h s (.done (s.setFlag 10 false))

/-- STD (R315). -/
def execStd (h : Head) (s : State) : Host.Outcome State Fault Refusal := runTable h s (.done (s.setFlag 10 true))

/-- CMC (R316). -/
def execCmc (h : Head) (s : State) : Host.Outcome State Fault Refusal :=
  runTable h s (.done (s.setFlag 0 (!s.flags.cf)))

/-- LAHF (R317). -/
def execLahf (h : Head) (s : State) : Host.Outcome State Fault Refusal := runTable h s (.done (s.setAh s.flags.lowByte))

/-- SAHF (R318). -/
def execSahf (h : Head) (s : State) : Host.Outcome State Fault Refusal :=
  runTable h s (.done { s with flags := s.flags.loadLow s.ah })

end Sys2Proof.Machine
end

