-- ==== Sys2Proof/Machine/Logical.lean ====
section
/-! DEFINITION. The logical, shift and rotate instructions (42_logical.md R200 to R214). -/

namespace Sys2Proof.Machine

/-- AND r/m,reg and reg,r/m (R201, by the template of 41_arithmetic.md R170). -/
def execAndRmReg (h : Head) (s : State) : Host.Outcome State Fault Refusal :=
  runRm h s fun rm reg =>
    .done (s.alu .and h.width (s.stdPolicy h.op) (direct h.dir rm reg).1 (s.readOp h.width (direct h.dir rm reg).2))

/-- AND accumulator,imm (R201). -/
def execAndAccImm (h : Head) (imm : Word) (s : State) : Host.Outcome State Fault Refusal :=
  run h s (.done (s.alu .and h.width (s.stdPolicy h.op) (.reg 0) (immValue h.width imm)))

/-- AND r/m,imm (R201), with the policy entry of the same operation in its RM_REG form (30_encoding.md R114(b)). -/
def execAndRmImm (h : Head) (imm : Word) (s : State) : Host.Outcome State Fault Refusal :=
  runRm h s fun rm _ =>
    .done (s.alu .and h.width (s.stdPolicy (AluOp.opcode .and)) rm (Head.aluImm h imm))

/-- OR r/m,reg and reg,r/m (R202, by the template of 41_arithmetic.md R170). -/
def execOrRmReg (h : Head) (s : State) : Host.Outcome State Fault Refusal :=
  runRm h s fun rm reg =>
    .done (s.alu .or h.width (s.stdPolicy h.op) (direct h.dir rm reg).1 (s.readOp h.width (direct h.dir rm reg).2))

/-- OR accumulator,imm (R202). -/
def execOrAccImm (h : Head) (imm : Word) (s : State) : Host.Outcome State Fault Refusal :=
  run h s (.done (s.alu .or h.width (s.stdPolicy h.op) (.reg 0) (immValue h.width imm)))

/-- OR r/m,imm (R202), with the policy entry of the same operation in its RM_REG form (30_encoding.md R114(b)). -/
def execOrRmImm (h : Head) (imm : Word) (s : State) : Host.Outcome State Fault Refusal :=
  runRm h s fun rm _ =>
    .done (s.alu .or h.width (s.stdPolicy (AluOp.opcode .or)) rm (Head.aluImm h imm))

/-- XOR r/m,reg and reg,r/m (R203, by the template of 41_arithmetic.md R170). -/
def execXorRmReg (h : Head) (s : State) : Host.Outcome State Fault Refusal :=
  runRm h s fun rm reg =>
    .done (s.alu .xor h.width (s.stdPolicy h.op) (direct h.dir rm reg).1 (s.readOp h.width (direct h.dir rm reg).2))

/-- XOR accumulator,imm (R203). -/
def execXorAccImm (h : Head) (imm : Word) (s : State) : Host.Outcome State Fault Refusal :=
  run h s (.done (s.alu .xor h.width (s.stdPolicy h.op) (.reg 0) (immValue h.width imm)))

/-- XOR r/m,imm (R203), with the policy entry of the same operation in its RM_REG form (30_encoding.md R114(b)). -/
def execXorRmImm (h : Head) (imm : Word) (s : State) : Host.Outcome State Fault Refusal :=
  runRm h s fun rm _ =>
    .done (s.alu .xor h.width (s.stdPolicy (AluOp.opcode .xor)) rm (Head.aluImm h imm))

/-- NOT r/m (R204): no flag is written. -/
def execNot (h : Head) (s : State) : Host.Outcome State Fault Refusal :=
  runRmTable h s fun rm _ => .done (s.writeOp h.width rm (2 ^ h.width.bits - 1 - s.readOp h.width rm))

/-- TEST r/m,reg (R205). -/
def execTestRmReg (h : Head) (s : State) : Host.Outcome State Fault Refusal :=
  runRm h s fun rm reg => .done (s.test h.width (s.stdPolicy h.op) (s.readOp h.width rm) (s.reg h.width reg))

/-- TEST accumulator,imm (R205). -/
def execTestAccImm (h : Head) (imm : Word) (s : State) : Host.Outcome State Fault Refusal :=
  run h s (.done (s.test h.width (s.stdPolicy h.op) (s.reg h.width 0) (immValue h.width imm)))

/-- TEST r/m,imm (R205): the handler selects the policy (30_encoding.md R115). -/
def execTestRmImm (h : Head) (imm : Word) (s : State) : Host.Outcome State Fault Refusal :=
  runRm h s fun rm _ => .done (s.test h.width policySzpLogic (s.readOp h.width rm) (immValue h.width imm))

/-- The shift and rotate operations (R206). -/
inductive ShiftOp where
  | rol | ror | rcl | rcr | shl | shr | sar
deriving DecidableEq, Repr

/-- A value and the carry, between two single steps (R206). -/
structure ShiftState where
  v : Nat
  c : Bool
deriving DecidableEq, Repr

/-- One step of an operation on a `W`-bit value (R207 to R213). -/
def ShiftOp.step (op : ShiftOp) (w : Width) (x : ShiftState) : ShiftState :=
  let t := topBit w x.v
  let l := x.v.testBit 0
  let high (b : Bool) : Nat := if b then 2 ^ (w.bits - 1) else 0
  match op with
  | .rol => ⟨(2 * x.v + t.toNat) % 2 ^ w.bits, t⟩
  | .ror => ⟨x.v / 2 + high l, l⟩
  | .rcl => ⟨(2 * x.v + x.c.toNat) % 2 ^ w.bits, t⟩
  | .rcr => ⟨x.v / 2 + high x.c, l⟩
  | .shl => ⟨2 * x.v % 2 ^ w.bits, t⟩
  | .shr => ⟨x.v / 2, l⟩
  | .sar => ⟨x.v / 2 + high t, l⟩

/-- `count` steps, one after another (R206). -/
def ShiftOp.steps (op : ShiftOp) (w : Width) (count : Nat) (x : ShiftState) : ShiftState :=
  match count with
  | 0 => x
  | n + 1 => ShiftOp.steps op w n (op.step w x)

/-- OF after a shift by 1, from the operand `v0` before it and the value and carry after it (R207 to R213). -/
def ShiftOp.overflowOne (op : ShiftOp) (w : Width) (v0 : Nat) (x : ShiftState) : Bool :=
  match op with
  | .rol | .rcl | .shl => topBit w x.v ^^ x.c
  | .ror | .rcr => topBit w x.v ^^ x.v.testBit (w.bits - 2)
  | .shr => topBit w v0
  | .sar => false

/-- A shift, which sets SF, ZF, PF and draws AF; a rotate writes none of them (R206). -/
def ShiftOp.isShift : ShiftOp → Bool
  | .shl | .shr | .sar => true
  | .rol | .ror | .rcl | .rcr => false

/-- The flags after a shift or rotate by a count above 0 (R206). -/
def State.shiftFlags (s : State) (op : ShiftOp) (w : Width) (count v0 : Nat) (x : ShiftState) : Flags :=
  let f : Flags := { s.flags with cf := x.c }
  let f := if count = 1 then { f with of := op.overflowOne w v0 x } else f.drawOf s
  if op.isShift then (f.drawAf s).policy s.tables w policySZP ⟨0, v0, x.v⟩ else f

/-- The common part of the shifts and rotates (R206): the count is used in full, and a count of 0 changes nothing. -/
def State.shift (s : State) (op : ShiftOp) (w : Width) (o : Operand) (count : Nat) : State :=
  if count = 0 then s
  else
    let v0 := s.readOp w o
    let x := op.steps w count ⟨v0, s.flags.cf⟩
    { s.writeOp w o x.v with flags := s.shiftFlags op w count v0 x }

/-- ROL r/m,1 (R207): rotate left by 1. -/
def execRolOne (h : Head) (s : State) : Host.Outcome State Fault Refusal :=
  runRm h s fun rm _ => .done (s.shift .rol h.width rm 1)

/-- ROL r/m,CL (R207): rotate left by CL. -/
def execRolCl (h : Head) (s : State) : Host.Outcome State Fault Refusal :=
  runRm h s fun rm _ => .done (s.shift .rol h.width rm s.cl.toNat)

/-- ROR r/m,1 (R208): rotate right by 1. -/
def execRorOne (h : Head) (s : State) : Host.Outcome State Fault Refusal :=
  runRm h s fun rm _ => .done (s.shift .ror h.width rm 1)

/-- ROR r/m,CL (R208): rotate right by CL. -/
def execRorCl (h : Head) (s : State) : Host.Outcome State Fault Refusal :=
  runRm h s fun rm _ => .done (s.shift .ror h.width rm s.cl.toNat)

/-- RCL r/m,1 (R209): rotate left through carry by 1. -/
def execRclOne (h : Head) (s : State) : Host.Outcome State Fault Refusal :=
  runRm h s fun rm _ => .done (s.shift .rcl h.width rm 1)

/-- RCL r/m,CL (R209): rotate left through carry by CL. -/
def execRclCl (h : Head) (s : State) : Host.Outcome State Fault Refusal :=
  runRm h s fun rm _ => .done (s.shift .rcl h.width rm s.cl.toNat)

/-- RCR r/m,1 (R210): rotate right through carry by 1. -/
def execRcrOne (h : Head) (s : State) : Host.Outcome State Fault Refusal :=
  runRm h s fun rm _ => .done (s.shift .rcr h.width rm 1)

/-- RCR r/m,CL (R210): rotate right through carry by CL. -/
def execRcrCl (h : Head) (s : State) : Host.Outcome State Fault Refusal :=
  runRm h s fun rm _ => .done (s.shift .rcr h.width rm s.cl.toNat)

/-- SHL r/m,1 (R211): shift left by 1. -/
def execShlOne (h : Head) (s : State) : Host.Outcome State Fault Refusal :=
  runRm h s fun rm _ => .done (s.shift .shl h.width rm 1)

/-- SHL r/m,CL (R211): shift left by CL. -/
def execShlCl (h : Head) (s : State) : Host.Outcome State Fault Refusal :=
  runRm h s fun rm _ => .done (s.shift .shl h.width rm s.cl.toNat)

/-- SHR r/m,1 (R212): logical shift right by 1. -/
def execShrOne (h : Head) (s : State) : Host.Outcome State Fault Refusal :=
  runRm h s fun rm _ => .done (s.shift .shr h.width rm 1)

/-- SHR r/m,CL (R212): logical shift right by CL. -/
def execShrCl (h : Head) (s : State) : Host.Outcome State Fault Refusal :=
  runRm h s fun rm _ => .done (s.shift .shr h.width rm s.cl.toNat)

/-- SAR r/m,1 (R213): arithmetic shift right by 1. -/
def execSarOne (h : Head) (s : State) : Host.Outcome State Fault Refusal :=
  runRm h s fun rm _ => .done (s.shift .sar h.width rm 1)

/-- SAR r/m,CL (R213): arithmetic shift right by CL. -/
def execSarCl (h : Head) (s : State) : Host.Outcome State Fault Refusal :=
  runRm h s fun rm _ => .done (s.shift .sar h.width rm s.cl.toNat)

end Sys2Proof.Machine
end

