-- ==== Sys2Proof/Machine/Stack.lean ====
section
/-! DEFINITION. The stack instructions (45_stack.md R290 to R298). -/

namespace Sys2Proof.Machine

/-- PUSH SP (R291): the value stored is the new SP. -/
def State.pushSp (s : State) : State := s.push (s.sp - 2)

/-- PUSH r16 (R291). -/
def execPushReg (h : Head) (s : State) : Host.Outcome State Fault Refusal :=
  runTable h s (.done (if h.opReg = 4 then s.pushSp else s.push (s.reg16 h.opReg)))

/-- PUSH sreg (R292). -/
def execPushSreg (h : Head) (r : SReg) (s : State) : Host.Outcome State Fault Refusal :=
  runTable h s (.done (s.push (s.sreg r)))

/-- PUSH r/m16 (R293): the operand is read before SP changes, but for PUSH SP in its ModRM form. -/
def execPushRm (h : Head) (s : State) : Host.Outcome State Fault Refusal :=
  runRmTable h s fun rm _ =>
    .done (if rm = .reg 4 then s.pushSp else s.push (BitVec.ofNat 16 (s.readOp .word rm)))

/-- POP r16 (R294): the register write comes after the increment of SP. -/
def execPopReg (h : Head) (s : State) : Host.Outcome State Fault Refusal :=
  runTable h s (.done (s.drop.setReg16 h.opReg s.top))

/-- POP sreg (R295). -/
def execPopSreg (h : Head) (r : SReg) (s : State) : Host.Outcome State Fault Refusal :=
  runTable h s (.done (s.drop.setSreg r s.top))

/-- POP r/m16 (R296): the operand's address is the one resolved before the pop. -/
def execPopRm (h : Head) (s : State) : Host.Outcome State Fault Refusal :=
  runRmTable h s fun rm _ => .done (s.drop.writeOp .word rm s.top.toNat)

/-- PUSHF (R297). -/
def execPushf (h : Head) (s : State) : Host.Outcome State Fault Refusal := runTable h s (.done (s.push s.flags.word))

/-- POPF (R298). -/
def execPopf (h : Head) (s : State) : Host.Outcome State Fault Refusal :=
  runTable h s (.done { s.drop with flags := Flags.ofWord s.top })

end Sys2Proof.Machine
end

