-- ==== Sys2Proof/Machine/Strings.lean ====
section
/-! DEFINITION. The string instructions (44_string.md R270 to R276). -/

namespace Sys2Proof.Machine

/-- `delta` (R270): up or down by the element's size, by DF. -/
def State.delta (s : State) (w : Width) : Word :=
  if s.flags.df then -BitVec.ofNat 16 w.bytes else BitVec.ofNat 16 w.bytes

/-- The address of the source element, `phys(ovr(DS), SI)` (R270). -/
def State.sourceAddr (s : State) : Nat := phys (s.ovr .ds) s.si

/-- The address of the destination element, `phys(ES, DI)`: the override does not reach it (R270). -/
def State.destAddr (s : State) : Nat := phys s.es s.di

/-- SI stepped to the next element (R270). -/
def State.stepSi (s : State) (w : Width) : State := { s with si := s.si + s.delta w }

/-- DI stepped to the next element (R270). -/
def State.stepDi (s : State) (w : Width) : State := { s with di := s.di + s.delta w }

/-- A store of `v` at the destination element. -/
def State.storeDest (s : State) (w : Width) (v : Nat) : State := { s with mem := s.mem.writeW w s.destAddr v }

/-- The flags of CMP a,b, chosen by the handler (R275; 30_encoding.md R115). -/
def State.compare (s : State) (w : Width) (a b : Nat) : State :=
  { s with flags := AluOp.cmp.flags s.tables w policySzpArith a b s.flags }

/-- One element of MOVS (R272). -/
def State.movsElement (s : State) (w : Width) : State :=
  ((s.storeDest w (s.mem.readW w s.sourceAddr)).stepSi w).stepDi w

/-- One element of STOS (R273). -/
def State.stosElement (s : State) (w : Width) : State := (s.storeDest w (s.reg w 0)).stepDi w

/-- One element of LODS (R274). -/
def State.lodsElement (s : State) (w : Width) : State := (s.setReg w 0 (s.mem.readW w s.sourceAddr)).stepSi w

/-- One element of CMPS (R275). -/
def State.cmpsElement (s : State) (w : Width) : State :=
  ((s.compare w (s.mem.readW w s.sourceAddr) (s.mem.readW w s.destAddr)).stepSi w).stepDi w

/-- One element of SCAS (R276). -/
def State.scasElement (s : State) (w : Width) : State :=
  (s.compare w (s.reg w 0) (s.mem.readW w s.destAddr)).stepDi w

/-- CX counted down after an element (R271). -/
def State.countDown (s : State) : State := { s with cx := s.cx - 1 }

/-- At most `n` elements, each followed by the count; it ends early when `stop` holds after a count (R271). -/
def repeatElements (element : State → State) (stop : State → Bool) (n : Nat) (s : State) : State :=
  match n with
  | 0 => s
  | n + 1 =>
    let t := (element s).countDown
    if stop t then t else repeatElements element stop n t

/-- A string instruction (R271): one element without the repeat latch, else `CX` elements or fewer. No element writes CX,
so `CX` is how many elements are left (notes/assumptions/22.md). -/
def State.runString (s : State) (element : State → State) (stop : State → Bool) : State :=
  if s.repActive then repeatElements element stop s.cx.toNat s else element s

/-- MOVS, STOS and LODS ignore `rep_mode` (R271). -/
def neverStop (_ : State) : Bool := false

/-- CMPS and SCAS end when `FLAGS.ZF != rep_mode` (R271). -/
def stopOnZf (s : State) : Bool := s.flags.zf != decide (s.repMode = .repz)

/-- MOVSB, MOVSW (R272). -/
def execMovs (h : Head) (s : State) : Host.Outcome State Fault Refusal :=
  runTable h s (.done (s.runString (fun t => t.movsElement h.width) neverStop))

/-- STOSB, STOSW (R273). -/
def execStos (h : Head) (s : State) : Host.Outcome State Fault Refusal :=
  runTable h s (.done (s.runString (fun t => t.stosElement h.width) neverStop))

/-- LODSB, LODSW (R274). -/
def execLods (h : Head) (s : State) : Host.Outcome State Fault Refusal :=
  runTable h s (.done (s.runString (fun t => t.lodsElement h.width) neverStop))

/-- CMPSB, CMPSW (R275). -/
def execCmps (h : Head) (s : State) : Host.Outcome State Fault Refusal :=
  run h s (.done (s.runString (fun t => t.cmpsElement h.width) stopOnZf))

/-- SCASB, SCASW (R276). -/
def execScas (h : Head) (s : State) : Host.Outcome State Fault Refusal :=
  run h s (.done (s.runString (fun t => t.scasElement h.width) stopOnZf))

end Sys2Proof.Machine
end

