-- ==== Sys2Proof/Machine/System.lean ====
section
/-! DEFINITION. The I/O stubs, the prefix latches, the software interrupts, HLT, and the encodings without a handler
(47_io_prefix_int_halt.md R320 to R332). -/

namespace Sys2Proof.Machine

/-- IN accumulator,imm8 (R320). -/
def execInImm (h : Head) (_port : Byte) (s : State) : Host.Outcome State Fault Refusal := run h s (stubHandler none)

/-- IN accumulator,DX (R320). -/
def execInDx (h : Head) (s : State) : Host.Outcome State Fault Refusal := run h s (stubHandler none)

/-- OUT imm8,accumulator (R321). -/
def execOutImm (h : Head) (_port : Byte) (s : State) : Host.Outcome State Fault Refusal := run h s (stubHandler none)

/-- OUT DX,accumulator (R321). -/
def execOutDx (h : Head) (s : State) : Host.Outcome State Fault Refusal := run h s (stubHandler none)

/-- A counter raised by 1 when it is not 0: the other latch is kept alive over the pass of a prefix (R322, R323). -/
def keepAlive (cnt : Nat) : Nat := if 0 < cnt then cnt + 1 else cnt

/-- A segment-override prefix (R322). -/
def execSeg (h : Head) (r : SReg) (s : State) : Host.Outcome State Fault Refusal :=
  runTable h s (.done { s with segCnt := 2, segSel := r, repCnt := keepAlive s.repCnt })

/-- A repeat prefix (R323, R324). -/
def State.latchRepeat (s : State) (mode : RepMode) : State :=
  { s with repCnt := 2, repMode := mode, segCnt := keepAlive s.segCnt }

/-- REPNZ (R323). -/
def execRepnz (h : Head) (s : State) : Host.Outcome State Fault Refusal := runTable h s (.done (s.latchRepeat .repnz))

/-- REPZ (R324). -/
def execRepz (h : Head) (s : State) : Host.Outcome State Fault Refusal := runTable h s (.done (s.latchRepeat .repz))

/-- INT3 (R325). -/
def execInt3 (h : Head) (s : State) : Host.Outcome State Fault Refusal :=
  runTable h s (.jump (s.deliver 3 (s.nextIp h)))

/-- INT imm8 (R326): a stub vector faults, any other is delivered. -/
def execInt (h : Head) (vector : Byte) (s : State) : Host.Outcome State Fault Refusal :=
  runTable h s
    (if vector ∈ s.stubVectors then stubHandler (some vector) else .jump (s.deliver vector (s.nextIp h)))

/-- INTO (R327). -/
def execInto (h : Head) (s : State) : Host.Outcome State Fault Refusal :=
  runTable h s (if s.flags.of then .jump (s.deliver 4 (s.nextIp h)) else .done s)

/-- HLT (R328): the pass completes, then `run_state` is HALTED. -/
def execHlt (h : Head) (s : State) : Host.Outcome State Fault Refusal :=
  runTable h s (.done { s with runState := .halted })

/-- A reserved first byte (R329). -/
def execReservedOpcode (h : Head) (s : State) : Host.Outcome State Fault Refusal := finish h s noHandler

/-- WAIT (R330). -/
def execReservedWait (h : Head) (s : State) : Host.Outcome State Fault Refusal := finish h s noHandler

/-- LOCK (R331). -/
def execReservedLock (h : Head) (s : State) : Host.Outcome State Fault Refusal := finish h s noHandler

/-- ESC (R332). -/
def execReservedEsc (h : Head) (s : State) : Host.Outcome State Fault Refusal := finish h s noHandler

/-- A member of a group that no handler covers (R329; 42_logical.md R214). The resolver runs in step 3, so its fault comes
first (60_exceptions.md R359). -/
def execReservedMember (h : Head) (s : State) : Host.Outcome State Fault Refusal := run h s noHandler

end Sys2Proof.Machine
end

