-- ==== Sys2Proof/Machine/Dispatch.lean ====
section
/-! DEFINITION. Step 4 of a pass (30_encoding.md R91, R92): the meaning of every instruction, by its constructor. -/

namespace Sys2Proof.Machine

/-- Steps 3 to 8 of a pass for a decoded instruction. -/
def exec (i : Instr) (s : State) : Host.Outcome State Fault Refusal :=
  match i with
  | .addRmReg h => Sys2Proof.Machine.execAddRmReg h s
  | .addAccImm h imm => Sys2Proof.Machine.execAddAccImm h imm s
  | .addRmImm h imm => Sys2Proof.Machine.execAddRmImm h imm s
  | .orRmReg h => Sys2Proof.Machine.execOrRmReg h s
  | .orAccImm h imm => Sys2Proof.Machine.execOrAccImm h imm s
  | .orRmImm h imm => Sys2Proof.Machine.execOrRmImm h imm s
  | .adcRmReg h => Sys2Proof.Machine.execAdcRmReg h s
  | .adcAccImm h imm => Sys2Proof.Machine.execAdcAccImm h imm s
  | .adcRmImm h imm => Sys2Proof.Machine.execAdcRmImm h imm s
  | .sbbRmReg h => Sys2Proof.Machine.execSbbRmReg h s
  | .sbbAccImm h imm => Sys2Proof.Machine.execSbbAccImm h imm s
  | .sbbRmImm h imm => Sys2Proof.Machine.execSbbRmImm h imm s
  | .andRmReg h => Sys2Proof.Machine.execAndRmReg h s
  | .andAccImm h imm => Sys2Proof.Machine.execAndAccImm h imm s
  | .andRmImm h imm => Sys2Proof.Machine.execAndRmImm h imm s
  | .subRmReg h => Sys2Proof.Machine.execSubRmReg h s
  | .subAccImm h imm => Sys2Proof.Machine.execSubAccImm h imm s
  | .subRmImm h imm => Sys2Proof.Machine.execSubRmImm h imm s
  | .xorRmReg h => Sys2Proof.Machine.execXorRmReg h s
  | .xorAccImm h imm => Sys2Proof.Machine.execXorAccImm h imm s
  | .xorRmImm h imm => Sys2Proof.Machine.execXorRmImm h imm s
  | .cmpRmReg h => Sys2Proof.Machine.execCmpRmReg h s
  | .cmpAccImm h imm => Sys2Proof.Machine.execCmpAccImm h imm s
  | .cmpRmImm h imm => Sys2Proof.Machine.execCmpRmImm h imm s
  | .movRmReg h => Sys2Proof.Machine.execMovRmReg h s
  | .movRegImm h imm => Sys2Proof.Machine.execMovRegImm h imm s
  | .movRmImm h imm => Sys2Proof.Machine.execMovRmImm h imm s
  | .movMoffs h addr => Sys2Proof.Machine.execMovMoffs h addr s
  | .movRmSreg h => Sys2Proof.Machine.execMovRmSreg h s
  | .movSregRm h => Sys2Proof.Machine.execMovSregRm h s
  | .xchgRmReg h => Sys2Proof.Machine.execXchgRmReg h s
  | .xchgAx h => Sys2Proof.Machine.execXchgAx h s
  | .nop h => Sys2Proof.Machine.execNop h s
  | .lea h => Sys2Proof.Machine.execLea h s
  | .les h => Sys2Proof.Machine.execLes h s
  | .lds h => Sys2Proof.Machine.execLds h s
  | .xlat h => Sys2Proof.Machine.execXlat h s
  | .cbw h => Sys2Proof.Machine.execCbw h s
  | .cwd h => Sys2Proof.Machine.execCwd h s
  | .incReg h => Sys2Proof.Machine.execIncReg h s
  | .incRm h => Sys2Proof.Machine.execIncRm h s
  | .decReg h => Sys2Proof.Machine.execDecReg h s
  | .decRm h => Sys2Proof.Machine.execDecRm h s
  | .neg h => Sys2Proof.Machine.execNeg h s
  | .mul h => Sys2Proof.Machine.execMul h s
  | .imul h => Sys2Proof.Machine.execImul h s
  | .div h => Sys2Proof.Machine.execDiv h s
  | .idiv h => Sys2Proof.Machine.execIdiv h s
  | .daa h => Sys2Proof.Machine.execDaa h s
  | .das h => Sys2Proof.Machine.execDas h s
  | .aaa h => Sys2Proof.Machine.execAaa h s
  | .aas h => Sys2Proof.Machine.execAas h s
  | .aam h imm => Sys2Proof.Machine.execAam h imm s
  | .aad h imm => Sys2Proof.Machine.execAad h imm s
  | .not h => Sys2Proof.Machine.execNot h s
  | .testRmReg h => Sys2Proof.Machine.execTestRmReg h s
  | .testAccImm h imm => Sys2Proof.Machine.execTestAccImm h imm s
  | .testRmImm h imm => Sys2Proof.Machine.execTestRmImm h imm s
  | .rolOne h => Sys2Proof.Machine.execRolOne h s
  | .rolCl h => Sys2Proof.Machine.execRolCl h s
  | .rorOne h => Sys2Proof.Machine.execRorOne h s
  | .rorCl h => Sys2Proof.Machine.execRorCl h s
  | .rclOne h => Sys2Proof.Machine.execRclOne h s
  | .rclCl h => Sys2Proof.Machine.execRclCl h s
  | .rcrOne h => Sys2Proof.Machine.execRcrOne h s
  | .rcrCl h => Sys2Proof.Machine.execRcrCl h s
  | .shlOne h => Sys2Proof.Machine.execShlOne h s
  | .shlCl h => Sys2Proof.Machine.execShlCl h s
  | .shrOne h => Sys2Proof.Machine.execShrOne h s
  | .shrCl h => Sys2Proof.Machine.execShrCl h s
  | .sarOne h => Sys2Proof.Machine.execSarOne h s
  | .sarCl h => Sys2Proof.Machine.execSarCl h s
  | .jo h rel => Sys2Proof.Machine.execJo h rel s
  | .jno h rel => Sys2Proof.Machine.execJno h rel s
  | .jb h rel => Sys2Proof.Machine.execJb h rel s
  | .jnb h rel => Sys2Proof.Machine.execJnb h rel s
  | .jz h rel => Sys2Proof.Machine.execJz h rel s
  | .jnz h rel => Sys2Proof.Machine.execJnz h rel s
  | .jbe h rel => Sys2Proof.Machine.execJbe h rel s
  | .jnbe h rel => Sys2Proof.Machine.execJnbe h rel s
  | .js h rel => Sys2Proof.Machine.execJs h rel s
  | .jns h rel => Sys2Proof.Machine.execJns h rel s
  | .jp h rel => Sys2Proof.Machine.execJp h rel s
  | .jnp h rel => Sys2Proof.Machine.execJnp h rel s
  | .jl h rel => Sys2Proof.Machine.execJl h rel s
  | .jnl h rel => Sys2Proof.Machine.execJnl h rel s
  | .jle h rel => Sys2Proof.Machine.execJle h rel s
  | .jnle h rel => Sys2Proof.Machine.execJnle h rel s
  | .jmpRel8 h rel => Sys2Proof.Machine.execJmpRel8 h rel s
  | .jmpRel16 h rel => Sys2Proof.Machine.execJmpRel16 h rel s
  | .jmpFar h off seg => Sys2Proof.Machine.execJmpFar h off seg s
  | .jmpRm h => Sys2Proof.Machine.execJmpRm h s
  | .jmpFarRm h => Sys2Proof.Machine.execJmpFarRm h s
  | .callRel h rel => Sys2Proof.Machine.execCallRel h rel s
  | .callFar h off seg => Sys2Proof.Machine.execCallFar h off seg s
  | .callRm h => Sys2Proof.Machine.execCallRm h s
  | .callFarRm h => Sys2Proof.Machine.execCallFarRm h s
  | .ret h => Sys2Proof.Machine.execRet h s
  | .retImm h imm => Sys2Proof.Machine.execRetImm h imm s
  | .retf h => Sys2Proof.Machine.execRetf h s
  | .retfImm h imm => Sys2Proof.Machine.execRetfImm h imm s
  | .iret h => Sys2Proof.Machine.execIret h s
  | .loopnz h rel => Sys2Proof.Machine.execLoopnz h rel s
  | .loopz h rel => Sys2Proof.Machine.execLoopz h rel s
  | .loop h rel => Sys2Proof.Machine.execLoop h rel s
  | .jcxz h rel => Sys2Proof.Machine.execJcxz h rel s
  | .movs h => Sys2Proof.Machine.execMovs h s
  | .stos h => Sys2Proof.Machine.execStos h s
  | .lods h => Sys2Proof.Machine.execLods h s
  | .cmps h => Sys2Proof.Machine.execCmps h s
  | .scas h => Sys2Proof.Machine.execScas h s
  | .pushReg h => Sys2Proof.Machine.execPushReg h s
  | .pushSreg h r => Sys2Proof.Machine.execPushSreg h r s
  | .pushRm h => Sys2Proof.Machine.execPushRm h s
  | .popReg h => Sys2Proof.Machine.execPopReg h s
  | .popSreg h r => Sys2Proof.Machine.execPopSreg h r s
  | .popRm h => Sys2Proof.Machine.execPopRm h s
  | .pushf h => Sys2Proof.Machine.execPushf h s
  | .popf h => Sys2Proof.Machine.execPopf h s
  | .clc h => Sys2Proof.Machine.execClc h s
  | .stc h => Sys2Proof.Machine.execStc h s
  | .cli h => Sys2Proof.Machine.execCli h s
  | .sti h => Sys2Proof.Machine.execSti h s
  | .cld h => Sys2Proof.Machine.execCld h s
  | .std h => Sys2Proof.Machine.execStd h s
  | .cmc h => Sys2Proof.Machine.execCmc h s
  | .lahf h => Sys2Proof.Machine.execLahf h s
  | .sahf h => Sys2Proof.Machine.execSahf h s
  | .inImm h port => Sys2Proof.Machine.execInImm h port s
  | .inDx h => Sys2Proof.Machine.execInDx h s
  | .outImm h port => Sys2Proof.Machine.execOutImm h port s
  | .outDx h => Sys2Proof.Machine.execOutDx h s
  | .seg h r => Sys2Proof.Machine.execSeg h r s
  | .repnz h => Sys2Proof.Machine.execRepnz h s
  | .repz h => Sys2Proof.Machine.execRepz h s
  | .int3 h => Sys2Proof.Machine.execInt3 h s
  | .int h vector => Sys2Proof.Machine.execInt h vector s
  | .into h => Sys2Proof.Machine.execInto h s
  | .hlt h => Sys2Proof.Machine.execHlt h s
  | .reservedOpcode h => Sys2Proof.Machine.execReservedOpcode h s
  | .reservedWait h => Sys2Proof.Machine.execReservedWait h s
  | .reservedLock h => Sys2Proof.Machine.execReservedLock h s
  | .reservedEsc h => Sys2Proof.Machine.execReservedEsc h s
  | .reservedMember h => Sys2Proof.Machine.execReservedMember h s

end Sys2Proof.Machine
end

