-- ==== Sys2Proof/Machine/Fetch.lean ====
section
/-! DEFINITION. The fetch window (30_encoding.md R90) and the stop condition (60_exceptions.md R366). -/

namespace Sys2Proof.Machine

/-- The bytes at `phys(CS, IP) + 0 .. + 5`: consecutive physical addresses, read afresh in every pass (R90). -/
def fetchWindow (s : State) : Window where
  b0 := s.mem.read (phys s.cs s.ip)
  b1 := s.mem.read (phys s.cs s.ip + 1)
  b2 := s.mem.read (phys s.cs s.ip + 2)
  b3 := s.mem.read (phys s.cs s.ip + 3)
  b4 := s.mem.read (phys s.cs s.ip + 4)
  b5 := s.mem.read (phys s.cs s.ip + 5)

/-- `stop_req` in this state: true from a pass count on, or never (60_exceptions.md R366; notes/assumptions/4.md). -/
def State.stopRequested (s : State) : Bool :=
  match s.stopAt with
  | some n => decide (n ≤ s.passes)
  | none => false

end Sys2Proof.Machine
end

