-- ==== Sys2Proof/Machine/Step.lean ====
section
/-! DEFINITION. One step: one pass of the loop (30_encoding.md R90, R91), or nothing in a terminal state (10_state.md R41);
and how the host places one instruction (notes/assumptions/9.md). -/

namespace Sys2Proof.Machine

/-- One pass. HALTED, FAULTED and STOPPED are terminal: nothing changes in them (10_state.md R41). A stop request is seen
before the fetch (60_exceptions.md R366). -/
def step (s : State) : Host.Outcome State Fault Refusal :=
  if s.runState ≠ .running then .next s
  else if s.stopRequested then .next { s with runState := .stopped }
  else exec (decode s.tables (fetchWindow s)) s

/-- The machine about to run one instruction, given as a word of the opcode table: the six bytes of its window stand at
CS:IP, the tables are `T_REF`, the engine runs and no stop is requested. -/
def State.withFetchWord (s : State) (nbits w : Nat) : State :=
  { s with
    mem := s.mem.writeBytes (phys s.cs s.ip) (Window.ofBytes (tableBytes nbits w)).toBytes
    tables := tRef
    runState := .running
    faultRecord := none
    stopAt := none }

end Sys2Proof.Machine
end

