-- ==== Sys2Proof/Machine/Reset.lean ====
section
/-! DEFINITION. The reset sequence with the decode-table load (70_reset_and_hazards.md R390 to R393). -/

namespace Sys2Proof.Machine

/-- `ptr_i`: the little-endian pointer of table `i`, at `0xF0000 + (0x81 + i) * 2` (R391). -/
def tablePointer (m : Memory) (i : Nat) : Nat := (m.readWord (0xF0000 + (0x81 + i) * 2)).toNat

/-- A table of 256 entries, one byte each from where its pointer says (R391). -/
def loadTable (m : Memory) (i : Nat) : Vector Byte 256 :=
  Vector.ofFn fun j : Fin 256 => m.read (0xF0000 + tablePointer m i + j.val)

/-- A conditional-jump table, of 8 entries (R391). -/
def loadCondTable (m : Memory) (i : Nat) : Vector Byte 8 :=
  Vector.ofFn fun j : Fin 8 => m.read (0xF0000 + tablePointer m i + j.val)

/-- Step 4 of the reset sequence: the twenty tables, by their indices (R391; 30_encoding.md R117). -/
def loadTables (m : Memory) : Tables where
  reg1Disp := loadTable m 0
  reg2Disp := loadTable m 1
  multDisp := loadTable m 2
  segDisp := loadTable m 3
  reg1Zero := loadTable m 4
  reg2Zero := loadTable m 5
  multZero := loadTable m 6
  segZero := loadTable m 7
  xlatOpcode := loadTable m 8
  xlatSubfunction := loadTable m 9
  stdFlags := loadTable m 10
  parityFlag := loadTable m 11
  baseInstSize := loadTable m 12
  iWSize := loadTable m 13
  iModSize := loadTable m 14
  condA := loadCondTable m 15
  condB := loadCondTable m 16
  condC := loadCondTable m 17
  condD := loadCondTable m 18
  flagsBitfields := Vector.ofFn fun j : Fin 10 => m.read (0xF0000 + tablePointer m 19 + j.val)

/-- `len(i)` (R391). -/
def tableLength (i : Nat) : Nat := if i < 15 then 256 else if i < 19 then 8 else 10

/-- A memory of `size` bytes can serve every read of the table load (R392). -/
def loadSucceeds (size : Nat) (m : Memory) : Bool :=
  decide (0xF012A ≤ size) &&
    (List.range 20).all fun i => decide (0xF0000 + tablePointer m i + tableLength i ≤ size)

/-- The reset sequence (R390) on a memory of `size` bytes with the contents `m`, with the parameters of 00_scope.md R7:
every register, flag and latch at its reset value, no fault recorded, the tables loaded from memory, running; or, when the
load fails, FAULTED with `ConfigurationError` before any fetch (R392; notes/assumptions/21.md). -/
def engineStart (size : Nat) (m : Memory) (stubs : List Byte) (stopAt : Option Nat) : State :=
  let s := { State.reset with mem := m, stubVectors := stubs, stopAt := stopAt }
  if loadSucceeds size m then { s with tables := loadTables m }
  else { s with runState := .faulted, faultRecord := some ⟨.configurationError, none, none, none⟩ }

end Sys2Proof.Machine
end

