-- ==== Sys2Proof/Safety.lean ====
section
/-! DEFINITION. What the claims call a well-formed state and a safe run. -/

namespace Sys2Proof.Machine

/-- The invariant of the machine: memory in its canonical form (20_memory.md R61), the latch counters 0 or 1 between passes
(30_encoding.md R116; 47_io_prefix_int_halt.md R324), and a fault record exactly in FAULTED (10_state.md R41, R42). -/
def State.inv (s : State) : Bool :=
  s.mem.wf && decide (s.segCnt ≤ 1) && decide (s.repCnt ≤ 1) &&
    (s.faultRecord.isSome == decide (s.runState = .faulted))

/-- The state after `n` steps. -/
def stateAfter (n : Nat) (s : State) : State :=
  match n with
  | 0 => s
  | n + 1 =>
    match step s with
    | .next t => stateAfter n t
    | .fault _ => s
    | .refused _ => s

/-- A safe run: no fault within `n` steps. -/
def State.safeFor (n : Nat) (s : State) : Bool := decide ((stateAfter n s).runState ≠ .faulted)

end Sys2Proof.Machine
end

