-- ==== Sys2Proof/Certificates/Slice0/Obligations.lean ====
section
/-! DEFINITION. The statements for the provers, with the functions that say what the rules of spec/ say. -/

namespace Sys2Proof.Spec

open Sys2Proof.Machine

/-- The end of a pass whose handler did not write IP (30_encoding.md R113, R116): IP is behind the encoded bytes. -/
def advance (i : Instr) (t : State) : State :=
  { t with
    ip := t.ip + BitVec.ofNat 16 (encode i).length
    segCnt := t.segCnt - 1, repCnt := t.repCnt - 1, passes := t.passes + 1 }

/-- The end of a pass whose handler wrote IP. -/
def jumped (t : State) : State := { t with segCnt := t.segCnt - 1, repCnt := t.repCnt - 1, passes := t.passes + 1 }

/-- `next_ip` (00_scope.md R9): the offset of the byte after the instruction. -/
def nextIp (i : Instr) (s : State) : Word := s.ip + BitVec.ofNat 16 (encode i).length

/-- FAULTED, with nothing changed but the record (60_exceptions.md R351). -/
def faulted (i : Instr) (s : State) (kind : FaultKind) (reason : Option FaultReason) (vector : Option Byte) : State :=
  { s with
    runState := .faulted
    faultRecord := some
      { kind := kind, reason := reason, vector := vector
        site := some
          { opcode := i.head.op, xlatId := lookup s.tables.xlatOpcode i.head.op
            subfunction := lookup s.tables.xlatSubfunction i.head.op, cs := s.cs, ip := s.ip } } }

/-- The register terms of an addressing form (30_encoding.md R105). -/
def baseOffset (s : State) (rm : BitVec 3) : Word :=
  match rm.toNat with
  | 0 => s.bx + s.si
  | 1 => s.bx + s.di
  | 2 => s.bp + s.si
  | 3 => s.bp + s.di
  | 4 => s.si
  | 5 => s.di
  | 6 => s.bp
  | _ => s.bx

/-- The default segment of an addressing form: SS for the forms with BP, else DS (R105). -/
def formSegment (rm : BitVec 3) : SReg := if rm = 2 ∨ rm = 3 ∨ rm = 6 then .ss else .ds

/-- `ovr(D)` (20_memory.md R63). -/
def segmentValue (s : State) (d : SReg) : Word := if 0 < s.segCnt then s.sreg s.segSel else s.sreg d

/-- A memory operand: its offset, and the segment it is in by default (30_encoding.md R106). -/
def memAt (s : State) (d : SReg) (off : Word) : Operand := .mem off ((segmentValue s d).toNat * 16 + off.toNat)

/-- The operand that `mod` and `rm` name (30_encoding.md R101 to R107). -/
def operand (s : State) (ea : RM) : Operand :=
  match ea with
  | .reg rm => .reg rm
  | .mem rm => memAt s (formSegment rm) (baseOffset s rm)
  | .direct disp => memAt s .ds disp
  | .mem8 rm disp => memAt s (formSegment rm) (baseOffset s rm + disp.signExtend 16)
  | .mem16 rm disp => memAt s (formSegment rm) (baseOffset s rm + disp)

/-- The destination of a format with a direction bit (R97, R109). -/
def toOperand (s : State) (h : Head) (m : ModRM) : Operand :=
  if h.op.getLsbD 1 then .reg m.reg else operand s m.ea

/-- The source of a format with a direction bit (R97, R109). -/
def fromOperand (s : State) (h : Head) (m : ModRM) : Operand :=
  if h.op.getLsbD 1 then operand s m.ea else .reg m.reg

/-- The low byte has an even number of one bits (10_state.md R34). -/
def evenOnes (v : Nat) : Bool := decide (((List.range 8).filter fun i => v.testBit i).length % 2 = 0)

/-- SF, ZF, PF of a result (10_state.md R34). -/
def szp (w : Width) (v : Nat) (f : Flags) : Flags :=
  { f with sf := decide (2 ^ (w.bits - 1) ≤ v), zf := decide (v = 0), pf := evenOnes v }

/-- The exact result of an arithmetic operation, before it wraps (10_state.md R37). -/
def exact (op : AluOp) (dv sv cin : Int) : Int :=
  match op with
  | .add => dv + sv
  | .adc => dv + sv + cin
  | .sub | .cmp => dv - sv
  | .sbb => dv - sv - cin
  | .and | .or | .xor => 0

/-- The integer does not fit `W` bits in two's complement. -/
def signedOverflow (w : Width) (z : Int) : Bool := decide (z < -(2 ^ (w.bits - 1)) ∨ 2 ^ (w.bits - 1) ≤ z)

/-- The flags of ADD, ADC, SUB, SBB and CMP: carry or borrow out of the operand, carry or borrow out of bit 3, two's
complement overflow, sign, zero, parity (10_state.md R34, R35, R37). -/
def arithFlags (op : AluOp) (w : Width) (dv sv : Nat) (f : Flags) : Flags :=
  let z := exact op dv sv f.cf.toNat
  let low := exact op (dv % 16 : Nat) (sv % 16 : Nat) f.cf.toNat
  szp w (z % 2 ^ w.bits).toNat
    { f with
      cf := decide (z < 0 ∨ 2 ^ w.bits ≤ z)
      af := decide (low < 0 ∨ 16 ≤ low)
      of := signedOverflow w (exact op (signedOf w dv) (signedOf w sv) f.cf.toNat) }

/-- The state after an arithmetic operation, before the end of the pass (41_arithmetic.md R170 to R175). -/
def arithPost (s : State) (op : AluOp) (w : Width) (dest : Operand) (sv : Nat) : State :=
  let dv := s.readOp w dest
  let z := exact op dv sv s.flags.cf.toNat
  { (if op = .cmp then s else s.writeOp w dest (z % 2 ^ w.bits).toNat) with
    flags := arithFlags op w dv sv s.flags }

/-- The result of a bitwise operation (42_logical.md R201 to R203). -/
def bitwise (op : AluOp) (a b : Nat) : Nat :=
  match op with
  | .and => a &&& b
  | .or => a ||| b
  | .xor => a ^^^ b
  | _ => 0

/-- The flags of a bitwise result: SZP, CF and OF cleared, AF kept (42_logical.md R200). -/
def logicFlags (w : Width) (v : Nat) (f : Flags) : Flags := szp w v { f with cf := false, of := false }

/-- The state after a bitwise operation, before the end of the pass. -/
def bitwisePost (s : State) (op : AluOp) (w : Width) (dest : Operand) (sv : Nat) : State :=
  let v := bitwise op (s.readOp w dest) sv
  { s.writeOp w dest v with flags := logicFlags w v s.flags }

/-- The instruction of an operation, r/m and register (41_arithmetic.md R170). -/
def aluRmReg (op : AluOp) (h : Head) : Instr :=
  match op with
  | .add => .addRmReg h
  | .or => .orRmReg h
  | .adc => .adcRmReg h
  | .sbb => .sbbRmReg h
  | .and => .andRmReg h
  | .sub => .subRmReg h
  | .xor => .xorRmReg h
  | .cmp => .cmpRmReg h

/-- The instruction of an operation, accumulator and immediate. -/
def aluAccImm (op : AluOp) (h : Head) (imm : Word) : Instr :=
  match op with
  | .add => .addAccImm h imm
  | .or => .orAccImm h imm
  | .adc => .adcAccImm h imm
  | .sbb => .sbbAccImm h imm
  | .and => .andAccImm h imm
  | .sub => .subAccImm h imm
  | .xor => .xorAccImm h imm
  | .cmp => .cmpAccImm h imm

/-- The instruction of an operation, r/m and immediate. -/
def aluRmImm (op : AluOp) (h : Head) (imm : Word) : Instr :=
  match op with
  | .add => .addRmImm h imm
  | .or => .orRmImm h imm
  | .adc => .adcRmImm h imm
  | .sbb => .sbbRmImm h imm
  | .and => .andRmImm h imm
  | .sub => .subRmImm h imm
  | .xor => .xorRmImm h imm
  | .cmp => .cmpRmImm h imm

/-- The immediate of 80 to 83 (30_encoding.md R110): for 83 the byte, sign-extended. -/
def groupImm (op : Byte) (imm : Word) : Nat :=
  if op = 0x83 then ((BitVec.ofNat 8 imm.toNat).signExtend 16).toNat else imm.toNat

/-- The four flags U1 leaves to a draw after MUL and IMUL are free; CF and OF are `ovf`; TF, IF, DF keep their values. -/
def afterMul (f g : Flags) (ovf : Bool) : Prop :=
  g.cf = ovf ∧ g.of = ovf ∧ g.tf = f.tf ∧ g.ief = f.ief ∧ g.df = f.df

/-- TF, IF, DF keep their values. -/
def controlKept (f g : Flags) : Prop := g.tf = f.tf ∧ g.ief = f.ief ∧ g.df = f.df

/-- SF, ZF, PF of a byte result. -/
def szpOf (w : Width) (v : Nat) (g : Flags) : Prop :=
  g.sf = decide (2 ^ (w.bits - 1) ≤ v) ∧ g.zf = decide (v = 0) ∧ g.pf = evenOnes v

/-- The condition of a conditional jump, by `B0[3:0]` (43_control_transfer.md R231 to R246). -/
def condition (f : Flags) (cc : Nat) : Bool :=
  match cc with
  | 0 => f.of
  | 1 => !f.of
  | 2 => f.cf
  | 3 => !f.cf
  | 4 => f.zf
  | 5 => !f.zf
  | 6 => f.cf || f.zf
  | 7 => !(f.cf || f.zf)
  | 8 => f.sf
  | 9 => !f.sf
  | 10 => f.pf
  | 11 => !f.pf
  | 12 => f.sf ^^ f.of
  | 13 => !(f.sf ^^ f.of)
  | 14 => f.zf || (f.sf ^^ f.of)
  | _ => !(f.zf || (f.sf ^^ f.of))

/-- The conditional jump with `B0 = 0x70 + cc`. -/
def jcc (cc : Nat) (rel : Byte) : Instr :=
  let h : Head := ⟨BitVec.ofNat 8 (0x70 + cc), none⟩
  match cc with
  | 0 => .jo h rel
  | 1 => .jno h rel
  | 2 => .jb h rel
  | 3 => .jnb h rel
  | 4 => .jz h rel
  | 5 => .jnz h rel
  | 6 => .jbe h rel
  | 7 => .jnbe h rel
  | 8 => .js h rel
  | 9 => .jns h rel
  | 10 => .jp h rel
  | 11 => .jnp h rel
  | 12 => .jl h rel
  | 13 => .jnl h rel
  | 14 => .jle h rel
  | _ => .jnle h rel

/-- A word stored below the top of the stack (45_stack.md R290). -/
def pushed (s : State) (v : Word) : State :=
  { s with sp := s.sp - 2, mem := s.mem.writeWord (s.ss.toNat * 16 + (s.sp - 2).toNat) v }

/-- The word `k` words above the top of the stack. -/
def stackWord (s : State) (k : Nat) : Word :=
  s.mem.readWord (s.ss.toNat * 16 + (s.sp + BitVec.ofNat 16 (2 * k)).toNat)

/-- `deliver(vector, ret)` (60_exceptions.md R360). -/
def delivered (s : State) (vector : Byte) (ret : Word) : State :=
  let t := pushed (pushed (pushed s s.flags.word) s.cs) ret
  { t with
    flags := { s.flags with tf := false, ief := false }
    cs := t.mem.readWord (4 * vector.toNat + 2)
    ip := t.mem.readWord (4 * vector.toNat) }

/-- The single-bit results of a shift or rotate by `n ≥ 1`: value and carry (42_logical.md R207 to R213). -/
def shiftValue (op : ShiftOp) (w : Width) (n v : Nat) (c : Bool) : Nat × Bool :=
  let W := w.bits
  let k := n % W
  let q := n % (W + 1)
  let x := c.toNat * 2 ^ W + v
  match op with
  | .rol => let r := (v * 2 ^ k + v / 2 ^ (W - k)) % 2 ^ W; (r, r.testBit 0)
  | .ror => let r := (v / 2 ^ k + v * 2 ^ (W - k)) % 2 ^ W; (r, r.testBit (W - 1))
  | .rcl => let r := (x * 2 ^ q + x / 2 ^ (W + 1 - q)) % 2 ^ (W + 1); (r % 2 ^ W, r.testBit W)
  | .rcr => let r := (x / 2 ^ q + x * 2 ^ (W + 1 - q)) % 2 ^ (W + 1); (r % 2 ^ W, r.testBit W)
  | .shl => ((v * 2 ^ n) % 2 ^ W, decide (n ≤ W) && v.testBit (W - n))
  | .shr => (v / 2 ^ n, v.testBit (n - 1))
  | .sar => (narrow w (signedOf w v / 2 ^ n), decide (signedOf w v / 2 ^ (n - 1) % 2 = 1))

/-- OF after a shift or rotate by 1, of the operand `v0` with the result `v` and the carry `c` (R207 to R213). -/
def shiftOverflow (op : ShiftOp) (w : Width) (v0 v : Nat) (c : Bool) : Bool :=
  match op with
  | .rol | .rcl | .shl => v.testBit (w.bits - 1) ^^ c
  | .ror | .rcr => v.testBit (w.bits - 1) ^^ v.testBit (w.bits - 2)
  | .shr => v0.testBit (w.bits - 1)
  | .sar => false

/-- The instruction of a shift or rotate: by 1, or by CL. -/
def shiftInstr (op : ShiftOp) (byCl : Bool) (h : Head) : Instr :=
  match op, byCl with
  | .rol, false => .rolOne h
  | .rol, true => .rolCl h
  | .ror, false => .rorOne h
  | .ror, true => .rorCl h
  | .rcl, false => .rclOne h
  | .rcl, true => .rclCl h
  | .rcr, false => .rcrOne h
  | .rcr, true => .rcrCl h
  | .shl, false => .shlOne h
  | .shl, true => .shlCl h
  | .shr, false => .shrOne h
  | .shr, true => .shrCl h
  | .sar, false => .sarOne h
  | .sar, true => .sarCl h

/-- SHL, SHR and SAR, which set SF, ZF and PF (R206). -/
def setsSzp (op : ShiftOp) : Bool := op == .shl || op == .shr || op == .sar

/-- The flags after a shift or rotate by `n ≥ 1` of `v0` to `v` (R206): AF of the shifts and OF for `n > 1` are free. -/
def shiftFlagsOk (op : ShiftOp) (w : Width) (n v0 v : Nat) (c : Bool) (f g : Flags) : Prop :=
  g.cf = c ∧ (n = 1 → g.of = shiftOverflow op w v0 v c) ∧ controlKept f g ∧
    (setsSzp op = true → szpOf w v g) ∧
    (setsSzp op = false → g.sf = f.sf ∧ g.zf = f.zf ∧ g.pf = f.pf ∧ g.af = f.af)

/-- `k` elements further, from an offset `x`, by DF (44_string.md R270). -/
def stepped (s : State) (w : Width) (x : Word) (k : Nat) : Word :=
  if s.flags.df then x - BitVec.ofNat 16 (k * w.bytes) else x + BitVec.ofNat 16 (k * w.bytes)

/-- The source element `k` of a repetition: its address (R270). -/
def sourceAt (s : State) (w : Width) (k : Nat) : Nat :=
  (segmentValue s .ds).toNat * 16 + (stepped s w s.si k).toNat

/-- The destination element `k` of a repetition: its address (R270). -/
def destAt (s : State) (w : Width) (k : Nat) : Nat := s.es.toNat * 16 + (stepped s w s.di k).toNat

/-- Memory after `n` elements of MOVS, one after another (R271(e), R272). -/
def copied (s : State) (w : Width) (n : Nat) : Memory :=
  match n with
  | 0 => s.mem
  | n + 1 => (copied s w n).writeW w (destAt s w n) ((copied s w n).readW w (sourceAt s w n))

/-- Memory after `n` elements of STOS (R273). -/
def filled (s : State) (w : Width) (n : Nat) : Memory :=
  match n with
  | 0 => s.mem
  | n + 1 => (filled s w n).writeW w (destAt s w n) (s.reg w 0)

/-- How many elements a string instruction may process: one, or CX with the repeat latch (R271). -/
def elementCount (s : State) : Nat := if 0 < s.repCnt then s.cx.toNat else 1

/-- CX after `k` elements: counted down only with the repeat latch (R271). -/
def countLeft (s : State) (k : Nat) : Word := if 0 < s.repCnt then s.cx - BitVec.ofNat 16 k else s.cx

/-- The comparison of element `k` of CMPS (R275). -/
def cmpsPair (s : State) (w : Width) (k : Nat) : Nat × Nat :=
  (s.mem.readW w (sourceAt s w k), s.mem.readW w (destAt s w k))

/-- The comparison of element `k` of SCAS (R276). -/
def scasPair (s : State) (w : Width) (k : Nat) : Nat × Nat := (s.reg w 0, s.mem.readW w (destAt s w k))

/-- Element `k` lets a repetition of CMPS or SCAS go on: equal under REPZ, unequal under REPNZ (R271). -/
def goesOn (s : State) (p : Nat × Nat) : Bool := decide (p.1 = p.2) == decide (s.repMode = .repz)

/-- How a CMPS or SCAS ends after `k` elements (R271): all of them, or the first that does not let it go on. -/
def comparisonEnds (s : State) (pair : Nat → Nat × Nat) (k : Nat) : Prop :=
  k ≤ elementCount s ∧ (∀ j, j + 1 < k → goesOn s (pair j) = true) ∧
    (k < elementCount s → 0 < k ∧ goesOn s (pair (k - 1)) = false)

/-- The flags after `k` compared elements: those of the last one, or the old ones (R271(a), R275). -/
def comparedFlags (s : State) (w : Width) (pair : Nat → Nat × Nat) (k : Nat) : Flags :=
  if k = 0 then s.flags
  else szp w ((((pair (k - 1)).1 : Int) - (pair (k - 1)).2) % 2 ^ w.bits).toNat
    { s.flags with
      cf := decide ((pair (k - 1)).1 < (pair (k - 1)).2)
      af := decide ((pair (k - 1)).1 % 16 < (pair (k - 1)).2 % 16)
      of := signedOverflow w (signedOf w (pair (k - 1)).1 - signedOf w (pair (k - 1)).2) }

/-- A register of width `w` has its storage in general register `n` (10_state.md R26). -/
def holds (w : Width) (r n : BitVec 3) : Bool :=
  match w with
  | .byte => n == (r &&& 3)
  | .word => n == r

/-- The operand is a register that has its storage in general register `n`. -/
def rmHolds (w : Width) (h : Head) (n : BitVec 3) : Bool :=
  match h.modrm with
  | some ⟨_, .reg r⟩ => holds w r n
  | _ => false

/-- The register of the `reg` field has its storage in general register `n`. -/
def regHolds (w : Width) (h : Head) (n : BitVec 3) : Bool :=
  match h.modrm with
  | some m => holds w m.reg n
  | none => false

/-- The destination of a format with a direction bit has its storage in general register `n`. -/
def toHolds (h : Head) (n : BitVec 3) : Bool :=
  if h.op.getLsbD 1 then regHolds h.width h n else rmHolds h.width h n

/-- The general registers an instruction may write: its destination, and those its rule updates besides. -/
def writesReg (i : Instr) (s : State) (n : BitVec 3) : Bool :=
  match i with
  | .addRmReg h | .orRmReg h | .adcRmReg h | .sbbRmReg h | .andRmReg h | .subRmReg h | .xorRmReg h
  | .movRmReg h => toHolds h n
  | .addRmImm h _ | .orRmImm h _ | .adcRmImm h _ | .sbbRmImm h _ | .andRmImm h _ | .subRmImm h _ | .xorRmImm h _
  | .movRmImm h _ | .incRm h | .decRm h | .neg h | .not h | .rolOne h | .rolCl h | .rorOne h | .rorCl h | .rclOne h
  | .rclCl h | .rcrOne h | .rcrCl h | .shlOne h | .shlCl h | .shrOne h | .shrCl h | .sarOne h
  | .sarCl h => rmHolds h.width h n
  | .addAccImm .. | .orAccImm .. | .adcAccImm .. | .sbbAccImm .. | .andAccImm .. | .subAccImm .. | .xorAccImm ..
  | .xlat _ | .cbw _ | .daa _ | .das _ | .aaa _ | .aas _ | .aam .. | .aad .. | .lahf _ => n == 0
  | .movRegImm h _ => holds h.width h.opReg n
  | .movMoffs h _ => !h.op.getLsbD 1 && n == 0
  | .movRmSreg h => rmHolds .word h n
  | .xchgRmReg h => rmHolds h.width h n || regHolds h.width h n
  | .xchgAx h => n == 0 || n == h.opReg
  | .lea h | .les h | .lds h => regHolds .word h n
  | .cwd _ => n == 2
  | .incReg h | .decReg h => n == h.opReg
  | .mul h | .imul h | .div h | .idiv h => n == 0 || (n == 2 && h.width == .word)
  | .loopnz .. | .loopz .. | .loop .. => n == 1
  | .movs _ | .cmps _ => n == 6 || n == 7 || (n == 1 && s.repActive)
  | .stos _ | .scas _ => n == 7 || (n == 1 && s.repActive)
  | .lods _ => n == 0 || n == 6 || (n == 1 && s.repActive)
  | .pushReg _ | .pushSreg .. | .pushRm _ | .pushf _ | .popf _ | .popSreg .. | .callRel .. | .callFar .. | .callRm _
  | .callFarRm _ | .ret _ | .retImm .. | .retf _ | .retfImm .. | .iret _ | .int3 _ | .int .. => n == 4
  | .into _ => n == 4 && s.flags.of
  | .popReg h => n == 4 || n == h.opReg
  | .popRm h => n == 4 || rmHolds .word h n
  | .cmpRmReg _ | .cmpAccImm .. | .cmpRmImm .. | .movSregRm _ | .nop _ | .testRmReg _ | .testAccImm .. | .testRmImm ..
  | .jo .. | .jno .. | .jb .. | .jnb .. | .jz .. | .jnz .. | .jbe .. | .jnbe .. | .js .. | .jns .. | .jp .. | .jnp ..
  | .jl .. | .jnl .. | .jle .. | .jnle .. | .jmpRel8 .. | .jmpRel16 .. | .jmpFar .. | .jmpRm _ | .jmpFarRm _
  | .jcxz .. | .clc _ | .stc _ | .cli _ | .sti _ | .cld _ | .std _ | .cmc _ | .sahf _ | .inImm .. | .inDx _
  | .outImm .. | .outDx _ | .seg .. | .repnz _ | .repz _ | .hlt _ | .reservedOpcode _ | .reservedWait _
  | .reservedLock _ | .reservedEsc _ | .reservedMember _ => false

/-- The segment registers an instruction may write (10_state.md R22). -/
def writesSreg (i : Instr) (r : SReg) : Bool :=
  match i with
  | .movSregRm h =>
    match h.modrm with
    | some m => r == SReg.ofNumber (m.reg.setWidth 2)
    | none => false
  | .popSreg _ q => r == q
  | .les _ => r == .es
  | .lds _ => r == .ds
  | .jmpFar .. | .jmpFarRm _ | .callFar .. | .callFarRm _ | .retf _ | .retfImm .. | .iret _ | .int3 _ | .int ..
  | .into _ => r == .cs
  | _ => false

/-- The flag cells an instruction may write, drawn ones among them (10_state.md R30; 93_implementation_defined.md U1). -/
def writesFlag (i : Instr) (k : Nat) : Bool :=
  match i with
  | .addRmReg _ | .addAccImm .. | .addRmImm .. | .adcRmReg _ | .adcAccImm .. | .adcRmImm .. | .sbbRmReg _
  | .sbbAccImm .. | .sbbRmImm .. | .subRmReg _ | .subAccImm .. | .subRmImm .. | .cmpRmReg _ | .cmpAccImm ..
  | .cmpRmImm .. | .neg _ | .mul _ | .imul _ | .div _ | .idiv _ | .daa _ | .das _ | .aaa _ | .aas _ | .aam .. | .aad ..
  | .shlOne _ | .shlCl _ | .shrOne _ | .shrCl _ | .sarOne _ | .sarCl _ | .cmps _ | .scas _ =>
    [0, 2, 4, 6, 7, 11].contains k
  | .andRmReg _ | .andAccImm .. | .andRmImm .. | .orRmReg _ | .orAccImm .. | .orRmImm .. | .xorRmReg _ | .xorAccImm ..
  | .xorRmImm .. | .testRmReg _ | .testAccImm .. | .testRmImm .. => [0, 2, 6, 7, 11].contains k
  | .incReg _ | .incRm _ | .decReg _ | .decRm _ => [2, 4, 6, 7, 11].contains k
  | .rolOne _ | .rolCl _ | .rorOne _ | .rorCl _ | .rclOne _ | .rclCl _ | .rcrOne _ | .rcrCl _ => [0, 11].contains k
  | .sahf _ => [0, 2, 4, 6, 7].contains k
  | .clc _ | .stc _ | .cmc _ => k == 0
  | .cli _ | .sti _ => k == 9
  | .cld _ | .std _ => k == 10
  | .int3 _ | .int .. | .into _ => k == 8 || k == 9
  | .popf _ | .iret _ => true
  | _ => false

/-- The memory operand of an instruction that stores into its ModRM operand: address and width, none for a register. -/
def rmStore (s : State) (h : Head) (w : Width) : Option (Nat × Width) :=
  match h.modrm with
  | some m =>
    match operand s m.ea with
    | .mem _ a => some (a, w)
    | .reg _ => none
  | none => none

/-- The store of an instruction whose one store goes to its operand: address and width. None for one that stores nothing. -/
def operandStore (i : Instr) (s : State) : Option (Nat × Width) :=
  match i with
  | .addRmReg h | .orRmReg h | .adcRmReg h | .sbbRmReg h | .andRmReg h | .subRmReg h | .xorRmReg h | .movRmReg h =>
    if h.op.getLsbD 1 then none else rmStore s h h.width
  | .addRmImm h _ | .orRmImm h _ | .adcRmImm h _ | .sbbRmImm h _ | .andRmImm h _ | .subRmImm h _ | .xorRmImm h _
  | .movRmImm h _ | .xchgRmReg h | .incRm h | .decRm h | .neg h | .not h | .rolOne h | .rolCl h | .rorOne h | .rorCl h
  | .rclOne h | .rclCl h | .rcrOne h | .rcrCl h | .shlOne h | .shlCl h | .shrOne h | .shrCl h | .sarOne h
  | .sarCl h => rmStore s h h.width
  | .movRmSreg h | .popRm h => rmStore s h .word
  | .movMoffs h a =>
    if h.op.getLsbD 1 then some ((segmentValue s .ds).toNat * 16 + a.toNat, h.width) else none
  | _ => none

/-- How many words an instruction pushes (45_stack.md R290; 60_exceptions.md R360). -/
def pushCount (i : Instr) (s : State) : Nat :=
  match i with
  | .pushReg _ | .pushSreg .. | .pushRm _ | .pushf _ | .callRel .. | .callRm _ => 1
  | .callFar .. | .callFarRm _ => 2
  | .int3 _ | .int .. => 3
  | .into _ => if s.flags.of then 3 else 0
  | _ => 0

/-- How many destination elements a string instruction stores (44_string.md R272, R273). -/
def elementStores (i : Instr) (s : State) : Nat :=
  match i with
  | .movs _ | .stos _ => elementCount s
  | _ => 0

/-- The instruction is a prefix (30_encoding.md R98). -/
def isPrefix : Instr → Bool
  | .seg .. | .repnz _ | .repz _ => true
  | _ => false

/-- The instruction is one of the reserved encodings (30_encoding.md R131). -/
def isReserved : Instr → Bool
  | .reservedOpcode _ | .reservedWait _ | .reservedLock _ | .reservedEsc _ | .reservedMember _ => true
  | _ => false

/-- The instruction stands for an opcode byte whose class has no handler, which step 2 of a pass finds out (30_encoding.md
R91, R131). -/
def foundInStep2 : Instr → Bool
  | .reservedOpcode _ | .reservedWait _ | .reservedLock _ | .reservedEsc _ => true
  | _ => false

/-- The addressing-table entries of a memory operand, by the bank of its `mod` (30_encoding.md R103 to R105, R117). -/
def formEntries (T : Tables) (ea : RM) : Option Form :=
  let zero (k : Byte) : Form :=
    ⟨lookup T.reg1Zero k, lookup T.reg2Zero k, lookup T.multZero k, lookup T.segZero k⟩
  let disp (k : Byte) : Form :=
    ⟨lookup T.reg1Disp k, lookup T.reg2Disp k, lookup T.multDisp k, lookup T.segDisp k⟩
  match ea with
  | .reg _ => none
  | .mem rm => some (zero (rm.setWidth 8))
  | .direct _ => some (zero 6)
  | .mem8 rm _ | .mem16 rm _ => some (disp (rm.setWidth 8))

/-- The value of a two-digit packed decimal byte. -/
def packed (b : Byte) : Nat := 10 * (b.toNat / 16) + b.toNat % 16

/-- Both digits are decimal. -/
def isPacked (b : Byte) : Prop := b.toNat / 16 ≤ 9 ∧ b.toNat % 16 ≤ 9

/-- The opcode map gives a first byte this class and subfunction (30_encoding.md R119, R121, R129). -/
def mapped (op : Byte) (cls sub : Nat) : Prop :=
  (lookup tRef.xlatOpcode op).toNat = cls ∧ (lookup tRef.xlatSubfunction op).toNat = sub

end Sys2Proof.Spec

open Sys2Proof Sys2Proof.Machine Sys2Proof.Spec

/-! ### Encoding -/

/-- Every well-formed instruction is what its bytes decode to, whatever follows them (30_encoding.md R93, R129 to R131;
the constructors are the model's, notes/assumptions/18.md and 27.md). -/
def Obligations.DecodeOfEncodeIsTheInstruction : Prop :=
  ∀ (i : Instr) (rest : List Byte), i.wellFormed = true → decode tRef (Window.ofBytes (encode i ++ rest)) = i

/-- Every window decodes to a well-formed instruction whose bytes are the first bytes of the window: no byte of an encoding
is dropped or made up (30_encoding.md R93, R129, R131). -/
def Obligations.EncodeOfDecodeIsTheWindow : Prop :=
  ∀ x : Window, (decode tRef x).wellFormed = true ∧
    x.toBytes.take (encode (decode tRef x)).length = encode (decode tRef x)

/-- The length formula counts exactly the bytes the decoder reads: 1 to 6 of them, the encoded length, and whatever stands
behind them decodes to the same instruction; a reserved encoding has no length (30_encoding.md R99, R112, R131). -/
def Obligations.LengthFormulaCountsTheBytesRead : Prop :=
  ∀ x y : Window, isReserved (decode tRef x) = false →
    let n := instLen tRef (decode tRef x).head
    1 ≤ n ∧ n ≤ 6 ∧ n = (encode (decode tRef x)).length ∧
      (x.toBytes.take n = y.toBytes.take n → decode tRef y = decode tRef x)

/-- Words of the opcode map, one for each family, decode to the instruction they stand for (30_encoding.md R129). -/
def Obligations.SampleWordsDecode : Prop :=
  decode tRef (Window.ofBytes [0x01, 0xD8]) = .addRmReg ⟨0x01, some ⟨3, .reg 0⟩⟩ ∧
  decode tRef (Window.ofBytes [0x83, 0xC3, 0xFF]) = .addRmImm ⟨0x83, some ⟨0, .reg 3⟩⟩ 0x00FF ∧
  decode tRef (Window.ofBytes [0x8B, 0x80, 0x00, 0x10]) = .movRmReg ⟨0x8B, some ⟨0, .mem16 0 0x1000⟩⟩ ∧
  decode tRef (Window.ofBytes [0xD3, 0xE0]) = .shlCl ⟨0xD3, some ⟨4, .reg 0⟩⟩ ∧
  decode tRef (Window.ofBytes [0x74, 0x05]) = .jz ⟨0x74, none⟩ 0x05 ∧
  decode tRef (Window.ofBytes [0x9A, 0x34, 0x12, 0x00, 0x30]) = .callFar ⟨0x9A, none⟩ 0x1234 0x3000 ∧
  decode tRef (Window.ofBytes [0xA5]) = .movs ⟨0xA5, none⟩ ∧
  decode tRef (Window.ofBytes [0x1F]) = .popSreg ⟨0x1F, none⟩ .ds ∧
  decode tRef (Window.ofBytes [0xFB]) = .sti ⟨0xFB, none⟩ ∧
  decode tRef (Window.ofBytes [0xCD, 0x21]) = .int ⟨0xCD, none⟩ 0x21 ∧
  decode tRef (Window.ofBytes [0xFF, 0xF8]) = .reservedMember ⟨0xFF, some ⟨7, .reg 0⟩⟩

/-! ### The pass -/

/-- When the engine runs, no stop is requested and the bytes at CS:IP encode a well-formed instruction, a step is the
execution of that instruction; with any tables it is the execution of what they decode (30_encoding.md R90 to R92). -/
def Obligations.StepRunsTheDecodedInstruction : Prop :=
  ∀ s : State, s.runState = .running → s.stopRequested = false →
    step s = exec (decode s.tables (fetchWindow s)) s ∧
    ∀ (i : Instr) (rest : List Byte), i.wellFormed = true → s.tables = tRef →
      fetchWindow s = Window.ofBytes (encode i ++ rest) → step s = exec i s

/-- A step in HALTED, FAULTED or STOPPED changes nothing; a stop request in RUNNING is seen before the fetch and changes
only the run state (10_state.md R41; 60_exceptions.md R366). That a terminal state has a step at all, and that the stop
request is a field, is the model's choice (notes/assumptions/2.md, 4.md). -/
def Obligations.TerminalStatesAndStopRequest : Prop :=
  ∀ s : State, (s.runState ≠ .running → step s = .next s) ∧
    (s.runState = .running → s.stopRequested = true → step s = .next { s with runState := .stopped })

/-- Every step gives a next state, whatever memory and the tables hold (20_memory.md R61, R70; 60_exceptions.md R351);
that a fault of the spec is a next state is the model's choice (notes/assumptions/1.md). -/
def Obligations.EveryStepGivesANextState : Prop := ∀ s : State, ∃ t, step s = .next t

/-- The invariant holds at reset (10_state.md R46; the canonical form of memory is the model's, notes/assumptions/8.md). -/
def Obligations.InvariantHoldsAtReset : Prop := State.reset.inv = true

/-- Every step keeps the invariant, from every state that has it: memory in canonical form and below MEM_SIZE, latch
counters at most 1, a fault record exactly in FAULTED (20_memory.md R61; 30_encoding.md R116; 10_state.md R41, R42; the
canonical form is the model's, notes/assumptions/8.md). -/
def Obligations.EveryStepKeepsTheInvariant : Prop :=
  ∀ s t : State, s.inv = true → step s = .next t → t.inv = true

/-- A step of a running engine into FAULTED changes nothing but the run state and the record, which names the opcode byte at
CS:IP with its class and subfunction (60_exceptions.md R351, R352; 10_state.md R42). That the pass is not counted is the
model's: the pass count is its own field (notes/assumptions/24.md). -/
def Obligations.FaultsArePrecise : Prop :=
  ∀ s t : State, s.runState = .running → step s = .next t → t.runState = .faulted →
    ∃ r : FaultRecord, t = { s with runState := .faulted, faultRecord := some r } ∧
      r.site = some
        { opcode := (fetchWindow s).b0, xlatId := lookup s.tables.xlatOpcode (fetchWindow s).b0
          subfunction := lookup s.tables.xlatSubfunction (fetchWindow s).b0, cs := s.cs, ip := s.ip }

/-- After a pass that does not fault both latch counters have fallen by 1; a prefix sets its own to 1 and keeps an active
other one at 1. So a latch lasts for exactly the pass after its prefix (10_state.md R38, R39; 30_encoding.md R116;
47_io_prefix_int_halt.md R322 to R324). -/
def Obligations.LatchesLastForOnePass : Prop :=
  ∀ (i : Instr) (s t : State), s.segCnt ≤ 1 → s.repCnt ≤ 1 → exec i s = .next t → s.runState = .running →
    t.runState ≠ .faulted →
    (isPrefix i = false → t.segCnt = 0 ∧ t.repCnt = 0 ∧ t.segSel = s.segSel ∧ t.repMode = s.repMode) ∧
    (∀ h r, i = .seg h r → t.segCnt = 1 ∧ t.segSel = r ∧ t.repCnt = s.repCnt ∧ t.repMode = s.repMode) ∧
    (∀ h, i = .repnz h → t.repCnt = 1 ∧ t.repMode = .repnz ∧ t.segCnt = s.segCnt ∧ t.segSel = s.segSel) ∧
    (∀ h, i = .repz h → t.repCnt = 1 ∧ t.repMode = .repz ∧ t.segCnt = s.segCnt ∧ t.segSel = s.segSel)

/-! ### Memory, registers, flags -/

/-- A store is read back, little-endian, and leaves every other byte alone (20_memory.md R64 to R67). -/
def Obligations.StoresAreReadBack : Prop :=
  ∀ (m : Memory) (a b : Nat) (u : Byte) (v : Word),
    (m.write a u).read b = (if b = a then u else m.read b) ∧
    (m.writeWord a v).read b =
      (if b = a then v.extractLsb' 0 8 else if b = a + 1 then v.extractLsb' 8 8 else m.read b) ∧
    (m.writeWord a v).readWord a = v

/-- Two memories in canonical form that read the same at every address are the same data (20_memory.md R60; the canonical form
is the model's, notes/assumptions/8.md). -/
def Obligations.CanonicalMemoriesAreEqual : Prop :=
  ∀ m n : Memory, m.wf = true → n.wf = true → (∀ a, m.read a = n.read a) → m = n

/-- A physical address is `(S << 4) + off`, not reduced; the fetch window and every word at it lie below MEM_SIZE
(20_memory.md R61, R62). -/
def Obligations.PhysicalAddressesAreInMemory : Prop :=
  ∀ s off : Word, phys s off = 16 * s.toNat + off.toNat ∧ phys s off ≤ 0x10FFEF ∧ phys s off + 5 < 0x110000

/-- A child register is a view of half of its parent: a write of it changes that half and nothing else
(10_state.md R25, R26). -/
def Obligations.ChildRegistersAreViews : Prop :=
  ∀ (s : State) (n k : BitVec 3) (b : Byte),
    (s.reg8 n = if n.toNat < 4 then (s.reg16 (n &&& 3)).extractLsb' 0 8 else (s.reg16 (n &&& 3)).extractLsb' 8 8) ∧
    (s.setReg8 n b).reg8 n = b ∧ (k ≠ n → (s.setReg8 n b).reg8 k = s.reg8 k) ∧
    (k ≠ n &&& 3 → (s.setReg8 n b).reg16 k = s.reg16 k)

/-- FLAGS_WORD: bit `i` is cell `i`, the reserved bits are 0; loading a word sets the named cells and ignores the other
bits, and is the inverse of storing (10_state.md R33). -/
def Obligations.FlagsWordLayout : Prop :=
  ∀ (f : Flags) (v : Word),
    (∀ i, i < 16 → f.word.getLsbD i = f.cell i) ∧
    f.word = (BitVec.ofBool f.cf).setWidth 16 ||| (BitVec.ofBool f.pf).setWidth 16 <<< 2 |||
      (BitVec.ofBool f.af).setWidth 16 <<< 4 ||| (BitVec.ofBool f.zf).setWidth 16 <<< 6 |||
      (BitVec.ofBool f.sf).setWidth 16 <<< 7 ||| (BitVec.ofBool f.tf).setWidth 16 <<< 8 |||
      (BitVec.ofBool f.ief).setWidth 16 <<< 9 ||| (BitVec.ofBool f.df).setWidth 16 <<< 10 |||
      (BitVec.ofBool f.of).setWidth 16 <<< 11 ∧
    (∀ i ∈ [0, 2, 4, 6, 7, 8, 9, 10, 11], (Flags.ofWord v).cell i = v.getLsbD i) ∧
    (Flags.ofWord v).word = v &&& 0x0FD5 ∧ Flags.ofWord f.word = f

/-- The resolver gives, with the tables T_REF, the operand of the 8086 addressing forms, and never fails
(30_encoding.md R101 to R107, R109). -/
def Obligations.AddressingForms : Prop :=
  ∀ (s : State) (op : Byte) (m : ModRM), s.tables = tRef → m.ea.wellFormed = true →
    s.resolve ⟨op, some m⟩ = .operands (operand s m.ea) m.reg

/-! ### Reset -/

/-- The values after reset. CS, IP, the latch counters and the empty fault record are those of 10_state.md R46. Choices are:
the zeros of the other registers, `seg_sel` and `rep_mode` (notes/assumptions/6.md, the spec's decision D5), the reference image in
memory (notes/assumptions/7.md), and so the tables T_REF and the run state RUNNING, where R46 says only that the tables are
loaded from memory and that the engine runs if the load succeeds (notes/assumptions/9.md). -/
def Obligations.ResetValues : Prop :=
  State.reset.cs = 0xF000 ∧ State.reset.ip = 0x0100 ∧ (∀ n, State.reset.reg16 n = 0) ∧ State.reset.es = 0 ∧
    State.reset.ss = 0 ∧ State.reset.ds = 0 ∧ State.reset.flags.word = 0 ∧ State.reset.segCnt = 0 ∧
    State.reset.segSel = .ds ∧ State.reset.repCnt = 0 ∧ State.reset.repMode = .repnz ∧
    State.reset.runState = .running ∧ State.reset.faultRecord = none ∧ State.reset.tables = tRef

/-- From a memory that holds the reference image the reset sequence loads the tables T_REF and leaves the reset state with
that memory and those parameters. A memory too short for the pointer region, or for a table, ends it in FAULTED with
ConfigurationError; with MEM_SIZE bytes the load never fails (70_reset_and_hazards.md R390 to R392, R395; 60_exceptions.md
R358). A memory of another size is a parameter of the model (notes/assumptions/21.md). -/
def Obligations.ResetSequence : Prop :=
  ∀ (m : Memory) (stubs : List Byte) (stopAt : Option Nat),
    ((∀ a, 0xF0102 ≤ a → a < 0xF112A → m.read a = imageByte a) →
      engineStart Config.memSize m stubs stopAt =
        { State.reset with mem := m, stubVectors := stubs, stopAt := stopAt }) ∧
    (∀ size, size < 0xF012A ∨ (∃ i < 20, size < 0xF0000 + tablePointer m i + tableLength i) →
      (engineStart size m stubs stopAt).runState = .faulted ∧
      (engineStart size m stubs stopAt).faultRecord =
        some { kind := .configurationError, reason := none, site := none, vector := none }) ∧
    (engineStart Config.memSize m stubs stopAt).runState = .running

/-! ### Arithmetic -/

/-- ADD, ADC, SUB, SBB and CMP in all their forms: the result modulo 2^W, written except by CMP; CF the carry or borrow, AF
the one out of bit 3, OF the two's complement overflow, SF, ZF, PF of the result (41_arithmetic.md R170 to R175;
10_state.md R34, R35, R37). -/
def Obligations.ArithmeticResults : Prop :=
  ∀ (op : AluOp) (s : State), op ∈ [AluOp.add, .adc, .sub, .sbb, .cmp] → s.tables = tRef →
    (∀ (b : Byte) (m : ModRM), (aluRmReg op ⟨b, some m⟩).wellFormed = true →
      exec (aluRmReg op ⟨b, some m⟩) s = .next (advance (aluRmReg op ⟨b, some m⟩)
        (arithPost s op (Width.ofBit (b.getLsbD 0)) (toOperand s ⟨b, some m⟩ m)
          (s.readOp (Width.ofBit (b.getLsbD 0)) (fromOperand s ⟨b, some m⟩ m))))) ∧
    (∀ (b : Byte) (imm : Word), (aluAccImm op ⟨b, none⟩ imm).wellFormed = true →
      exec (aluAccImm op ⟨b, none⟩ imm) s = .next (advance (aluAccImm op ⟨b, none⟩ imm)
        (arithPost s op (Width.ofBit (b.getLsbD 0)) (.reg 0) imm.toNat))) ∧
    (∀ (b : Byte) (m : ModRM) (imm : Word), (aluRmImm op ⟨b, some m⟩ imm).wellFormed = true →
      exec (aluRmImm op ⟨b, some m⟩ imm) s = .next (advance (aluRmImm op ⟨b, some m⟩ imm)
        (arithPost s op (Width.ofBit (b.getLsbD 0)) (operand s m.ea) (groupImm b imm))))

/-- INC and DEC in both forms: the result modulo 2^W, AF and OF as for an addition or subtraction of 1, SF, ZF, PF of the
result, CF not changed (41_arithmetic.md R176, R177). -/
def Obligations.IncrementResults : Prop :=
  ∀ (s : State) (b : Byte), s.tables = tRef →
    (∀ i ∈ [Instr.incReg ⟨b, none⟩, .decReg ⟨b, none⟩], i.wellFormed = true →
      let v := (s.reg16 (b.extractLsb' 0 3)).toNat
      let z : Int := if i = .incReg ⟨b, none⟩ then v + 1 else v - 1
      let r := (z % 65536).toNat
      exec i s = .next (advance i
        { s.setReg16 (b.extractLsb' 0 3) (BitVec.ofNat 16 r) with
          flags := szp .word r
            { s.flags with
              af := if i = .incReg ⟨b, none⟩ then decide (v % 16 = 15) else decide (v % 16 = 0)
              of := if i = .incReg ⟨b, none⟩ then decide (v = 0x7FFF) else decide (v = 0x8000) } })) ∧
    (∀ m : ModRM, ∀ i ∈ [Instr.incRm ⟨b, some m⟩, .decRm ⟨b, some m⟩], i.wellFormed = true →
      let w := Width.ofBit (b.getLsbD 0)
      let v := s.readOp w (operand s m.ea)
      let z : Int := if i = .incRm ⟨b, some m⟩ then v + 1 else v - 1
      let r := (z % 2 ^ w.bits).toNat
      exec i s = .next (advance i
        { s.writeOp w (operand s m.ea) r with
          flags := szp w r
            { s.flags with
              af := if i = .incRm ⟨b, some m⟩ then decide (v % 16 = 15) else decide (v % 16 = 0)
              of := if i = .incRm ⟨b, some m⟩ then decide (v + 1 = 2 ^ (w.bits - 1))
                else decide (v = 2 ^ (w.bits - 1)) } }))

/-- NEG: the two's complement, CF when the operand is not 0, OF for the most negative number alone; NOT: the complement,
no flag (41_arithmetic.md R178; 42_logical.md R204). -/
def Obligations.NegationResults : Prop :=
  ∀ (s : State) (b : Byte) (m : ModRM), s.tables = tRef →
    let w := Width.ofBit (b.getLsbD 0)
    let v := s.readOp w (operand s m.ea)
    let r := (2 ^ w.bits - v) % 2 ^ w.bits
    ((Instr.neg ⟨b, some m⟩).wellFormed = true →
      exec (.neg ⟨b, some m⟩) s = .next (advance (.neg ⟨b, some m⟩)
        { s.writeOp w (operand s m.ea) r with
          flags := szp w r
            { s.flags with
              cf := decide (v ≠ 0), af := decide (v % 16 ≠ 0), of := decide (v = 2 ^ (w.bits - 1)) } })) ∧
    ((Instr.not ⟨b, some m⟩).wellFormed = true →
      exec (.not ⟨b, some m⟩) s = .next (advance (.not ⟨b, some m⟩)
        (s.writeOp w (operand s m.ea) (2 ^ w.bits - 1 - v))))

/-- MUL and IMUL: the exact product in AX or DX:AX; CF and OF say that the low half alone is not the product; SF, ZF, PF
and AF are any value (41_arithmetic.md R179, R180; 93_implementation_defined.md U1; notes/assumptions/5.md). -/
def Obligations.MultiplyResults : Prop :=
  ∀ (s : State) (b : Byte) (m : ModRM), s.tables = tRef →
    let o := operand s m.ea
    ((Instr.mul ⟨b, some m⟩).wellFormed = true → b = 0xF6 →
      ∃ (p : Word) (f : Flags), p.toNat = s.al.toNat * s.readOp .byte o ∧
        afterMul s.flags f (decide (256 ≤ p.toNat)) ∧
        exec (.mul ⟨b, some m⟩) s = .next (advance (.mul ⟨b, some m⟩) { s with ax := p, flags := f })) ∧
    ((Instr.mul ⟨b, some m⟩).wellFormed = true → b = 0xF7 →
      ∃ (hi lo : Word) (f : Flags), hi.toNat * 65536 + lo.toNat = s.ax.toNat * s.readOp .word o ∧
        afterMul s.flags f (decide (hi ≠ 0)) ∧
        exec (.mul ⟨b, some m⟩) s = .next (advance (.mul ⟨b, some m⟩) { s with ax := lo, dx := hi, flags := f })) ∧
    ((Instr.imul ⟨b, some m⟩).wellFormed = true → b = 0xF6 →
      ∃ (p : Word) (f : Flags), p.toInt = s.al.toInt * (BitVec.ofNat 8 (s.readOp .byte o)).toInt ∧
        afterMul s.flags f (decide (p ≠ (p.setWidth 8).signExtend 16)) ∧
        exec (.imul ⟨b, some m⟩) s = .next (advance (.imul ⟨b, some m⟩) { s with ax := p, flags := f })) ∧
    ((Instr.imul ⟨b, some m⟩).wellFormed = true → b = 0xF7 →
      ∃ (hi lo : Word) (f : Flags),
        (hi ++ lo : BitVec 32).toInt = s.ax.toInt * (BitVec.ofNat 16 (s.readOp .word o)).toInt ∧
        afterMul s.flags f (decide ((hi ++ lo : BitVec 32) ≠ lo.signExtend 32)) ∧
        exec (.imul ⟨b, some m⟩) s = .next (advance (.imul ⟨b, some m⟩) { s with ax := lo, dx := hi, flags := f }))

/-- DIV: when the divisor is not 0 and the quotient fits, quotient and remainder of the unsigned division; the six status
flags are any value (41_arithmetic.md R181; 93_implementation_defined.md U1). -/
def Obligations.DivideResults : Prop :=
  ∀ (s : State) (b : Byte) (m : ModRM), s.tables = tRef → (Instr.div ⟨b, some m⟩).wellFormed = true →
    let o := operand s m.ea
    (b = 0xF6 → s.ax.toNat < 256 * s.readOp .byte o →
      ∃ (q r : Byte) (f : Flags), q.toNat * s.readOp .byte o + r.toNat = s.ax.toNat ∧ r.toNat < s.readOp .byte o ∧
        controlKept s.flags f ∧
        exec (.div ⟨b, some m⟩) s = .next (advance (.div ⟨b, some m⟩) { s with ax := r ++ q, flags := f })) ∧
    (b = 0xF7 → s.dx.toNat * 65536 + s.ax.toNat < 65536 * s.readOp .word o →
      ∃ (q r : Word) (f : Flags), q.toNat * s.readOp .word o + r.toNat = s.dx.toNat * 65536 + s.ax.toNat ∧
        r.toNat < s.readOp .word o ∧ controlKept s.flags f ∧
        exec (.div ⟨b, some m⟩) s = .next (advance (.div ⟨b, some m⟩) { s with ax := q, dx := r, flags := f }))

/-- IDIV: when the magnitude of the quotient is below 2^(W-1), quotient rounded toward zero and remainder with the sign of
the dividend; the six status flags are any value (41_arithmetic.md R182). -/
def Obligations.SignedDivideResults : Prop :=
  ∀ (s : State) (b : Byte) (m : ModRM), s.tables = tRef → (Instr.idiv ⟨b, some m⟩).wellFormed = true →
    let o := operand s m.ea
    (b = 0xF6 →
      let d := (BitVec.ofNat 8 (s.readOp .byte o)).toInt
      s.ax.toInt.natAbs < 128 * d.natAbs →
      ∃ (q r : Byte) (f : Flags), q.toInt * d + r.toInt = s.ax.toInt ∧ r.toInt.natAbs < d.natAbs ∧
        (r.toInt ≠ 0 → (r.toInt < 0 ↔ s.ax.toInt < 0)) ∧ controlKept s.flags f ∧
        exec (.idiv ⟨b, some m⟩) s = .next (advance (.idiv ⟨b, some m⟩) { s with ax := r ++ q, flags := f })) ∧
    (b = 0xF7 →
      let d := (BitVec.ofNat 16 (s.readOp .word o)).toInt
      (s.dx ++ s.ax : BitVec 32).toInt.natAbs < 32768 * d.natAbs →
      ∃ (q r : Word) (f : Flags), q.toInt * d + r.toInt = (s.dx ++ s.ax : BitVec 32).toInt ∧ r.toInt.natAbs < d.natAbs ∧
        (r.toInt ≠ 0 → (r.toInt < 0 ↔ (s.dx ++ s.ax : BitVec 32).toInt < 0)) ∧ controlKept s.flags f ∧
        exec (.idiv ⟨b, some m⟩) s = .next (advance (.idiv ⟨b, some m⟩) { s with ax := q, dx := r, flags := f }))

/-- Where a division faults: DIV and IDIV with a zero divisor or a quotient out of range, AAM with base 0. DivideError is
raised and nothing else changes (41_arithmetic.md R181, R182, R187; 60_exceptions.md R356). -/
def Obligations.DivisionFaults : Prop :=
  ∀ (s : State) (b : Byte) (m : ModRM), s.tables = tRef →
    let w := Width.ofBit (b.getLsbD 0)
    let v := s.readOp w (operand s m.ea)
    let n := if b = 0xF6 then s.ax.toNat else s.dx.toNat * 65536 + s.ax.toNat
    let z := if b = 0xF6 then s.ax.toInt else (s.dx ++ s.ax : BitVec 32).toInt
    ((Instr.div ⟨b, some m⟩).wellFormed = true → 2 ^ w.bits * v ≤ n →
      exec (.div ⟨b, some m⟩) s = .next (faulted (.div ⟨b, some m⟩) s .divideError none none)) ∧
    ((Instr.idiv ⟨b, some m⟩).wellFormed = true → 2 ^ (w.bits - 1) * (signedOf w v).natAbs ≤ z.natAbs →
      exec (.idiv ⟨b, some m⟩) s = .next (faulted (.idiv ⟨b, some m⟩) s .divideError none none)) ∧
    exec (.aam ⟨0xD4, none⟩ 0) s = .next (faulted (.aam ⟨0xD4, none⟩ 0) s .divideError none none)

/-- DAA and DAS: AL adjusted digit by digit, AF and CF say which digit was, SF, ZF, PF of AL, OF any value
(41_arithmetic.md R183, R184). -/
def Obligations.DecimalAdjustResults : Prop :=
  ∀ s : State, s.tables = tRef →
    let lowAdjust := 9 < s.al.toNat % 16 ∨ s.flags.af = true
    let highAdjust := 0x99 < s.al.toNat ∨ s.flags.cf = true
    (∃ (a : Byte) (f : Flags),
      a.toNat = (s.al.toNat + (if lowAdjust then 6 else 0) + (if highAdjust then 0x60 else 0)) % 256 ∧
      f.af = decide lowAdjust ∧ f.cf = decide highAdjust ∧ szpOf .byte a.toNat f ∧ controlKept s.flags f ∧
      exec (.daa ⟨0x27, none⟩) s = .next (advance (.daa ⟨0x27, none⟩) { s with ax := s.ah ++ a, flags := f })) ∧
    (∃ (a : Byte) (f : Flags),
      (a.toNat : Int) = ((s.al.toNat : Int) - (if lowAdjust then 6 else 0) - (if highAdjust then 0x60 else 0)) % 256 ∧
      f.af = decide lowAdjust ∧ f.cf = decide (highAdjust ∨ lowAdjust ∧ s.al.toNat < 6) ∧ szpOf .byte a.toNat f ∧
      controlKept s.flags f ∧
      exec (.das ⟨0x2F, none⟩) s = .next (advance (.das ⟨0x2F, none⟩) { s with ax := s.ah ++ a, flags := f }))

/-- DAA after the addition of two packed decimal bytes: AL is the packed decimal sum modulo 100, and CF its carry
(41_arithmetic.md R171, R183). -/
def Obligations.DaaMakesADecimalSum : Prop :=
  ∀ (s t u : State) (imm : Byte), s.tables = tRef → isPacked s.al → isPacked imm →
    exec (.addAccImm ⟨0x04, none⟩ (imm.setWidth 16)) s = .next t → exec (.daa ⟨0x27, none⟩) t = .next u →
    isPacked u.al ∧ packed u.al + (if u.flags.cf then 100 else 0) = packed s.al + packed imm

/-- AAA and AAS adjust AL and AH as two separate bytes; AAM divides AL by its base into AH and AL; AAD puts AL + AH * base
into AL and clears AH. AF and CF of AAA and AAS, SF, ZF, PF of AAM and AAD are defined, the other status flags any value
(41_arithmetic.md R185 to R188). -/
def Obligations.AsciiAdjustResults : Prop :=
  ∀ s : State, s.tables = tRef →
    let adjust := 9 < s.al.toNat % 16 ∨ s.flags.af = true
    (∃ f : Flags, f.af = decide adjust ∧ f.cf = decide adjust ∧ controlKept s.flags f ∧
      exec (.aaa ⟨0x37, none⟩) s = .next (advance (.aaa ⟨0x37, none⟩)
        { s with
          ax := if adjust then (s.ah + 1) ++ ((s.al + 6) &&& 0x0F) else s.ah ++ (s.al &&& 0x0F)
          flags := f })) ∧
    (∃ f : Flags, f.af = decide adjust ∧ f.cf = decide adjust ∧ controlKept s.flags f ∧
      exec (.aas ⟨0x3F, none⟩) s = .next (advance (.aas ⟨0x3F, none⟩)
        { s with
          ax := if adjust then (s.ah - 1) ++ ((s.al - 6) &&& 0x0F) else s.ah ++ (s.al &&& 0x0F)
          flags := f })) ∧
    (∀ base : Byte, base ≠ 0 → ∃ (q r : Byte) (f : Flags), q.toNat * base.toNat + r.toNat = s.al.toNat ∧
      r.toNat < base.toNat ∧ szpOf .byte r.toNat f ∧ controlKept s.flags f ∧
      exec (.aam ⟨0xD4, none⟩ base) s = .next (advance (.aam ⟨0xD4, none⟩ base) { s with ax := q ++ r, flags := f })) ∧
    (∀ base : Byte, ∃ (r : Byte) (f : Flags), r.toNat = (s.al.toNat + s.ah.toNat * base.toNat) % 256 ∧
      szpOf .byte r.toNat f ∧ controlKept s.flags f ∧
      exec (.aad ⟨0xD5, none⟩ base) s =
        .next (advance (.aad ⟨0xD5, none⟩ base) { s with ax := r.setWidth 16, flags := f }))

/-! ### Logic -/

/-- AND, OR and XOR in all their forms, and TEST, which writes no operand: SF, ZF, PF of the result, CF and OF cleared, AF
kept (42_logical.md R200 to R203, R205). -/
def Obligations.BitwiseResults : Prop :=
  ∀ (s : State) (b : Byte), s.tables = tRef →
    let w := Width.ofBit (b.getLsbD 0)
    (∀ op ∈ [AluOp.and, .or, .xor],
      (∀ m : ModRM, (aluRmReg op ⟨b, some m⟩).wellFormed = true →
        exec (aluRmReg op ⟨b, some m⟩) s = .next (advance (aluRmReg op ⟨b, some m⟩)
          (bitwisePost s op w (toOperand s ⟨b, some m⟩ m) (s.readOp w (fromOperand s ⟨b, some m⟩ m))))) ∧
      (∀ imm : Word, (aluAccImm op ⟨b, none⟩ imm).wellFormed = true →
        exec (aluAccImm op ⟨b, none⟩ imm) s = .next (advance (aluAccImm op ⟨b, none⟩ imm)
          (bitwisePost s op w (.reg 0) imm.toNat))) ∧
      (∀ (m : ModRM) (imm : Word), (aluRmImm op ⟨b, some m⟩ imm).wellFormed = true →
        exec (aluRmImm op ⟨b, some m⟩ imm) s = .next (advance (aluRmImm op ⟨b, some m⟩ imm)
          (bitwisePost s op w (operand s m.ea) (groupImm b imm))))) ∧
    (∀ m : ModRM, (Instr.testRmReg ⟨b, some m⟩).wellFormed = true →
      exec (.testRmReg ⟨b, some m⟩) s = .next (advance (.testRmReg ⟨b, some m⟩)
        { s with flags := logicFlags w (s.readOp w (operand s m.ea) &&& s.reg w m.reg) s.flags })) ∧
    (∀ imm : Word, (Instr.testAccImm ⟨b, none⟩ imm).wellFormed = true →
      exec (.testAccImm ⟨b, none⟩ imm) s = .next (advance (.testAccImm ⟨b, none⟩ imm)
        { s with flags := logicFlags w (s.reg w 0 &&& imm.toNat) s.flags })) ∧
    (∀ (m : ModRM) (imm : Word), (Instr.testRmImm ⟨b, some m⟩ imm).wellFormed = true →
      exec (.testRmImm ⟨b, some m⟩ imm) s = .next (advance (.testRmImm ⟨b, some m⟩ imm)
        { s with flags := logicFlags w (s.readOp w (operand s m.ea) &&& imm.toNat) s.flags }))

/-- Shifts and rotates by 1 or by CL, whose count is used in full: value and carry in closed form, OF for a count of 1, SF,
ZF, PF of a shift; AF of a shift and OF for a greater count are any value; a count of 0 changes nothing
(42_logical.md R206 to R213; 93_implementation_defined.md U1). -/
def Obligations.ShiftResults : Prop :=
  ∀ (op : ShiftOp) (byCl : Bool) (s : State) (b : Byte) (m : ModRM), s.tables = tRef →
    (shiftInstr op byCl ⟨b, some m⟩).wellFormed = true →
    let i := shiftInstr op byCl ⟨b, some m⟩
    let w := Width.ofBit (b.getLsbD 0)
    let n := if byCl then s.cl.toNat else 1
    let v0 := s.readOp w (operand s m.ea)
    let x := shiftValue op w n v0 s.flags.cf
    (n = 0 → exec i s = .next (advance i s)) ∧
    (n ≠ 0 → ∃ f : Flags, shiftFlagsOk op w n v0 x.1 x.2 s.flags f ∧
      exec i s = .next (advance i { s.writeOp w (operand s m.ea) x.1 with flags := f }))

/-! ### Data movement -/

/-- MOV between r/m and a register, in the direction of `d` (40_data_movement.md R141), and MOV of an immediate to a
register or to r/m (R142, R143). -/
def Obligations.MovResults : Prop :=
  ∀ (s : State) (b : Byte), s.tables = tRef →
    let w := Width.ofBit (b.getLsbD 0)
    (∀ m : ModRM, (Instr.movRmReg ⟨b, some m⟩).wellFormed = true →
      exec (.movRmReg ⟨b, some m⟩) s = .next (advance (.movRmReg ⟨b, some m⟩)
        (s.writeOp w (toOperand s ⟨b, some m⟩ m) (s.readOp w (fromOperand s ⟨b, some m⟩ m))))) ∧
    (∀ imm : Word, (Instr.movRegImm ⟨b, none⟩ imm).wellFormed = true →
      exec (.movRegImm ⟨b, none⟩ imm) s = .next (advance (.movRegImm ⟨b, none⟩ imm)
        (s.setReg (Width.ofBit (b.getLsbD 3)) (b.extractLsb' 0 3) imm.toNat))) ∧
    (∀ (m : ModRM) (imm : Word), (Instr.movRmImm ⟨b, some m⟩ imm).wellFormed = true →
      exec (.movRmImm ⟨b, some m⟩ imm) s = .next (advance (.movRmImm ⟨b, some m⟩ imm)
        (s.writeOp w (operand s m.ea) imm.toNat)))

/-- MOV between the accumulator and a direct offset (R144), MOV from and to a segment register (R145, R146), XCHG in both
forms (R147, R148) and NOP (R149). -/
def Obligations.MovSegmentAndExchangeResults : Prop :=
  ∀ (s : State) (b : Byte), s.tables = tRef →
    let w := Width.ofBit (b.getLsbD 0)
    (∀ addr : Word, (Instr.movMoffs ⟨b, none⟩ addr).wellFormed = true →
      exec (.movMoffs ⟨b, none⟩ addr) s = .next (advance (.movMoffs ⟨b, none⟩ addr)
        (if b.getLsbD 1 then s.writeOp w (memAt s .ds addr) (s.reg w 0)
         else s.setReg w 0 (s.readOp w (memAt s .ds addr))))) ∧
    (∀ m : ModRM, (Instr.movRmSreg ⟨b, some m⟩).wellFormed = true →
      exec (.movRmSreg ⟨b, some m⟩) s = .next (advance (.movRmSreg ⟨b, some m⟩)
        (s.writeOp .word (operand s m.ea) (s.sreg (SReg.ofNumber (m.reg.setWidth 2))).toNat))) ∧
    (∀ m : ModRM, (Instr.movSregRm ⟨b, some m⟩).wellFormed = true →
      exec (.movSregRm ⟨b, some m⟩) s = .next (advance (.movSregRm ⟨b, some m⟩)
        (s.setSreg (SReg.ofNumber (m.reg.setWidth 2)) (BitVec.ofNat 16 (s.readOp .word (operand s m.ea)))))) ∧
    (∀ m : ModRM, (Instr.xchgRmReg ⟨b, some m⟩).wellFormed = true →
      exec (.xchgRmReg ⟨b, some m⟩) s = .next (advance (.xchgRmReg ⟨b, some m⟩)
        ((s.writeOp w (operand s m.ea) (s.reg w m.reg)).setReg w m.reg (s.readOp w (operand s m.ea))))) ∧
    ((Instr.xchgAx ⟨b, none⟩).wellFormed = true →
      exec (.xchgAx ⟨b, none⟩) s = .next (advance (.xchgAx ⟨b, none⟩)
        ((s.setReg16 0 (s.reg16 (b.extractLsb' 0 3))).setReg16 (b.extractLsb' 0 3) (s.reg16 0)))) ∧
    exec (.nop ⟨0x90, none⟩) s = .next (advance (.nop ⟨0x90, none⟩) s)

/-- LEA puts the effective offset of a memory operand into a register, LES and LDS load a register and ES or DS from it;
with a register operand all three raise UnknownOperandShape and change nothing else (40_data_movement.md R150 to R152;
60_exceptions.md R354). -/
def Obligations.AddressLoadResults : Prop :=
  ∀ (s : State) (m : ModRM), s.tables = tRef → m.ea.wellFormed = true →
    (∀ ea a, operand s m.ea = .mem ea a →
      exec (.lea ⟨0x8D, some m⟩) s = .next (advance (.lea ⟨0x8D, some m⟩) (s.setReg16 m.reg ea)) ∧
      exec (.les ⟨0xC4, some m⟩) s = .next (advance (.les ⟨0xC4, some m⟩)
        { s.setReg16 m.reg (s.mem.readWord a) with es := s.mem.readWord (a + 2) }) ∧
      exec (.lds ⟨0xC5, some m⟩) s = .next (advance (.lds ⟨0xC5, some m⟩)
        { s.setReg16 m.reg (s.mem.readWord a) with ds := s.mem.readWord (a + 2) })) ∧
    (∀ r, m.ea = .reg r → ∀ i ∈ [Instr.lea ⟨0x8D, some m⟩, .les ⟨0xC4, some m⟩, .lds ⟨0xC5, some m⟩],
      exec i s = .next (faulted i s .unknownOperandShape none none))

/-- XLAT: AL is the byte at BX + AL in the overridable data segment, the sum wrapping at 16 bits and AH unchanged. -/
def Obligations.XlatLoadsTheTableByte : Prop :=
  ∀ (s : State) (x : Window), s.tables = tRef → x.b0 = 0xD7 →
    decode tRef x = .xlat ⟨0xD7, none⟩ ∧ mapped 0xD7 44 0 ∧ (encode (.xlat ⟨0xD7, none⟩)).length = 1 ∧
    exec (.xlat ⟨0xD7, none⟩) s = .next (advance (.xlat ⟨0xD7, none⟩)
      { s with
        ax := s.ax.extractLsb' 8 8 ++
          s.mem.read ((segmentValue s .ds).toNat * 16 + (s.bx.toNat + s.ax.toNat % 256) % 65536) })

/-- CBW and CWD: AX is the sign extension of AL; DX is sixteen copies of the sign of AX. -/
def Obligations.SignExtensionResults : Prop :=
  ∀ (s : State) (x : Window), s.tables = tRef →
    (x.b0 = 0x98 → decode tRef x = .cbw ⟨0x98, none⟩ ∧ mapped 0x98 30 0 ∧
      (encode (.cbw ⟨0x98, none⟩)).length = 1 ∧
      exec (.cbw ⟨0x98, none⟩) s = .next (advance (.cbw ⟨0x98, none⟩)
        { s with ax := (if s.ax.getLsbD 7 then (0xFF : Byte) else 0x00) ++ s.ax.setWidth 8 })) ∧
    (x.b0 = 0x99 → decode tRef x = .cwd ⟨0x99, none⟩ ∧ mapped 0x99 31 0 ∧
      (encode (.cwd ⟨0x99, none⟩)).length = 1 ∧
      exec (.cwd ⟨0x99, none⟩) s = .next (advance (.cwd ⟨0x99, none⟩)
        { s with dx := if s.ax.toNat < 0x8000 then 0x0000 else 0xFFFF }))

/-! ### Control transfer -/

/-- Every conditional jump is taken on its condition, to `next_ip` plus the sign-extended displacement, and otherwise goes
on; no flag is written (43_control_transfer.md R230 to R246). -/
def Obligations.ConditionalJumps : Prop :=
  ∀ (cc : Nat) (rel : Byte) (s : State), cc < 16 → s.tables = tRef →
    exec (jcc cc rel) s = .next
      (if condition s.flags cc then jumped { s with ip := nextIp (jcc cc rel) s + rel.signExtend 16 }
       else advance (jcc cc rel) s)

/-- The direct jumps: relative to `next_ip` within the segment, or to a new CS:IP (43_control_transfer.md R247 to R249). -/
def Obligations.DirectJumps : Prop :=
  ∀ (s : State) (x : Window), s.tables = tRef →
    (x.b0 = 0xEB → decode tRef x = .jmpRel8 ⟨0xEB, none⟩ x.b1 ∧ mapped 0xEB 14 3 ∧
      (encode (.jmpRel8 ⟨0xEB, none⟩ x.b1)).length = 2 ∧
      exec (.jmpRel8 ⟨0xEB, none⟩ x.b1) s = .next (jumped { s with ip := s.ip + 2 + x.b1.signExtend 16 })) ∧
    (x.b0 = 0xE9 → decode tRef x = .jmpRel16 ⟨0xE9, none⟩ (x.b2 ++ x.b1) ∧ mapped 0xE9 14 1 ∧
      (encode (.jmpRel16 ⟨0xE9, none⟩ (x.b2 ++ x.b1))).length = 3 ∧
      exec (.jmpRel16 ⟨0xE9, none⟩ (x.b2 ++ x.b1)) s = .next (jumped { s with ip := s.ip + 3 + (x.b2 ++ x.b1) })) ∧
    (x.b0 = 0xEA → decode tRef x = .jmpFar ⟨0xEA, none⟩ (x.b2 ++ x.b1) (x.b4 ++ x.b3) ∧ mapped 0xEA 14 2 ∧
      (encode (.jmpFar ⟨0xEA, none⟩ (x.b2 ++ x.b1) (x.b4 ++ x.b3))).length = 5 ∧
      exec (.jmpFar ⟨0xEA, none⟩ (x.b2 ++ x.b1) (x.b4 ++ x.b3)) s =
        .next (jumped { s with ip := x.b2 ++ x.b1, cs := x.b4 ++ x.b3 }))

/-- The indirect jumps: the target is read from the operand; a far one needs it in memory and raises UnknownOperandShape
for a register (43_control_transfer.md R250, R251). -/
def Obligations.IndirectJumps : Prop :=
  ∀ (s : State) (m : ModRM), s.tables = tRef →
    ((Instr.jmpRm ⟨0xFF, some m⟩).wellFormed = true →
      exec (.jmpRm ⟨0xFF, some m⟩) s =
        .next (jumped { s with ip := BitVec.ofNat 16 (s.readOp .word (operand s m.ea)) })) ∧
    ((Instr.jmpFarRm ⟨0xFF, some m⟩).wellFormed = true →
      exec (.jmpFarRm ⟨0xFF, some m⟩) s = .next
        (match operand s m.ea with
         | .mem _ a => jumped { s with ip := s.mem.readWord a, cs := s.mem.readWord (a + 2) }
         | .reg _ => faulted (.jmpFarRm ⟨0xFF, some m⟩) s .unknownOperandShape none none))

/-- The calls: `next_ip`, and CS before it for a far one, are pushed; the target of an indirect one is read before the
pushes; a far indirect one needs its operand in memory (43_control_transfer.md R252 to R255). -/
def Obligations.Calls : Prop :=
  ∀ s : State, s.tables = tRef →
    (∀ rel, exec (.callRel ⟨0xE8, none⟩ rel) s =
      .next (jumped { pushed s (s.ip + 3) with ip := s.ip + 3 + rel })) ∧
    (∀ off seg, exec (.callFar ⟨0x9A, none⟩ off seg) s =
      .next (jumped { pushed (pushed s s.cs) (s.ip + 5) with ip := off, cs := seg })) ∧
    (∀ m, (Instr.callRm ⟨0xFF, some m⟩).wellFormed = true →
      exec (.callRm ⟨0xFF, some m⟩) s =
        .next (jumped { pushed s (nextIp (.callRm ⟨0xFF, some m⟩) s) with
          ip := BitVec.ofNat 16 (s.readOp .word (operand s m.ea)) })) ∧
    (∀ m, (Instr.callFarRm ⟨0xFF, some m⟩).wellFormed = true →
      exec (.callFarRm ⟨0xFF, some m⟩) s = .next
        (match operand s m.ea with
         | .mem _ a => jumped { pushed (pushed s s.cs) (nextIp (.callFarRm ⟨0xFF, some m⟩) s) with
             ip := s.mem.readWord a, cs := s.mem.readWord (a + 2) }
         | .reg _ => faulted (.callFarRm ⟨0xFF, some m⟩) s .unknownOperandShape none none))

/-- The returns: IP, and CS for a far one, from the stack; an immediate is added to SP; IRET loads the flags too
(43_control_transfer.md R256 to R260). -/
def Obligations.Returns : Prop :=
  ∀ (s : State) (x : Window), s.tables = tRef →
    (x.b0 = 0xC3 → decode tRef x = .ret ⟨0xC3, none⟩ ∧ mapped 0xC3 19 1 ∧
      (encode (.ret ⟨0xC3, none⟩)).length = 1 ∧
      exec (.ret ⟨0xC3, none⟩) s = .next (jumped { s with ip := stackWord s 0, sp := s.sp + 2 })) ∧
    (x.b0 = 0xC2 → decode tRef x = .retImm ⟨0xC2, none⟩ (x.b2 ++ x.b1) ∧ mapped 0xC2 19 0 ∧
      (encode (.retImm ⟨0xC2, none⟩ (x.b2 ++ x.b1))).length = 3 ∧
      exec (.retImm ⟨0xC2, none⟩ (x.b2 ++ x.b1)) s =
        .next (jumped { s with ip := stackWord s 0, sp := s.sp + 2 + (x.b2 ++ x.b1) })) ∧
    (x.b0 = 0xCB → decode tRef x = .retf ⟨0xCB, none⟩ ∧ mapped 0xCB 19 3 ∧
      (encode (.retf ⟨0xCB, none⟩)).length = 1 ∧
      exec (.retf ⟨0xCB, none⟩) s =
        .next (jumped { s with ip := stackWord s 0, cs := stackWord s 1, sp := s.sp + 4 })) ∧
    (x.b0 = 0xCA → decode tRef x = .retfImm ⟨0xCA, none⟩ (x.b2 ++ x.b1) ∧ mapped 0xCA 19 2 ∧
      (encode (.retfImm ⟨0xCA, none⟩ (x.b2 ++ x.b1))).length = 3 ∧
      exec (.retfImm ⟨0xCA, none⟩ (x.b2 ++ x.b1)) s =
        .next (jumped { s with ip := stackWord s 0, cs := stackWord s 1, sp := s.sp + 4 + (x.b2 ++ x.b1) })) ∧
    (x.b0 = 0xCF → decode tRef x = .iret ⟨0xCF, none⟩ ∧ mapped 0xCF 19 4 ∧
      (encode (.iret ⟨0xCF, none⟩)).length = 1 ∧
      exec (.iret ⟨0xCF, none⟩) s = .next (jumped
        { s with
          ip := stackWord s 0, cs := stackWord s 1, flags := Flags.ofWord (stackWord s 2), sp := s.sp + 6 }))

/-- LOOP, LOOPZ, LOOPNZ count CX down and jump while it is not 0 (and ZF is 1, or 0); JCXZ jumps when CX is 0. No flag is
written (43_control_transfer.md R261 to R264). -/
def Obligations.LoopInstructions : Prop :=
  ∀ (s : State) (x : Window), s.tables = tRef →
    let target : Word := s.ip + 2 + x.b1.signExtend 16
    (x.b0 = 0xE2 → decode tRef x = .loop ⟨0xE2, none⟩ x.b1 ∧ mapped 0xE2 13 2 ∧
      (encode (.loop ⟨0xE2, none⟩ x.b1)).length = 2 ∧
      exec (.loop ⟨0xE2, none⟩ x.b1) s = .next (jumped { s with cx := s.cx - 1, ip := if s.cx = 1 then s.ip + 2 else target })) ∧
    (x.b0 = 0xE1 → decode tRef x = .loopz ⟨0xE1, none⟩ x.b1 ∧ mapped 0xE1 13 1 ∧
      (encode (.loopz ⟨0xE1, none⟩ x.b1)).length = 2 ∧
      exec (.loopz ⟨0xE1, none⟩ x.b1) s = .next (jumped
        { s with cx := s.cx - 1, ip := if s.cx ≠ 1 ∧ s.flags.zf = true then target else s.ip + 2 })) ∧
    (x.b0 = 0xE0 → decode tRef x = .loopnz ⟨0xE0, none⟩ x.b1 ∧ mapped 0xE0 13 0 ∧
      (encode (.loopnz ⟨0xE0, none⟩ x.b1)).length = 2 ∧
      exec (.loopnz ⟨0xE0, none⟩ x.b1) s = .next (jumped
        { s with cx := s.cx - 1, ip := if s.cx ≠ 1 ∧ s.flags.zf = false then target else s.ip + 2 })) ∧
    (x.b0 = 0xE3 → decode tRef x = .jcxz ⟨0xE3, none⟩ x.b1 ∧ mapped 0xE3 13 3 ∧
      (encode (.jcxz ⟨0xE3, none⟩ x.b1)).length = 2 ∧
      exec (.jcxz ⟨0xE3, none⟩ x.b1) s = .next (jumped { s with ip := if s.cx = 0 then target else s.ip + 2 }))

/-! ### Strings -/

/-- MOVS, STOS and LODS, alone or repeated CX times: the elements one after another, SI and DI stepped past them, CX
counted down, no flag written (44_string.md R270 to R274). -/
def Obligations.StringMoves : Prop :=
  ∀ (s : State) (b : Byte), s.tables = tRef →
    let w := Width.ofBit (b.getLsbD 0)
    let n := elementCount s
    ((Instr.movs ⟨b, none⟩).wellFormed = true →
      exec (.movs ⟨b, none⟩) s = .next (advance (.movs ⟨b, none⟩)
        { s with
          mem := copied s w n, si := stepped s w s.si n, di := stepped s w s.di n, cx := countLeft s n })) ∧
    ((Instr.stos ⟨b, none⟩).wellFormed = true →
      exec (.stos ⟨b, none⟩) s = .next (advance (.stos ⟨b, none⟩)
        { s with mem := filled s w n, di := stepped s w s.di n, cx := countLeft s n })) ∧
    ((Instr.lods ⟨b, none⟩).wellFormed = true →
      exec (.lods ⟨b, none⟩) s = .next (advance (.lods ⟨b, none⟩)
        { (if n = 0 then s else s.setReg w 0 (s.mem.readW w (sourceAt s w (n - 1)))) with
          si := stepped s w s.si n, cx := countLeft s n }))

/-- CMPS and SCAS, alone or repeated: they end after the first element that does not let them go on, or after the last; SI,
DI and CX are past it, and the flags are those of its comparison; without an element no register but IP, no flag and no memory changes
(44_string.md R271, R275, R276). -/
def Obligations.StringComparisons : Prop :=
  ∀ (s : State) (b : Byte), s.tables = tRef →
    let w := Width.ofBit (b.getLsbD 0)
    ((Instr.cmps ⟨b, none⟩).wellFormed = true →
      ∃ k, comparisonEnds s (cmpsPair s w) k ∧ exec (.cmps ⟨b, none⟩) s = .next (advance (.cmps ⟨b, none⟩)
        { s with
          si := stepped s w s.si k, di := stepped s w s.di k, cx := countLeft s k
          flags := comparedFlags s w (cmpsPair s w) k })) ∧
    ((Instr.scas ⟨b, none⟩).wellFormed = true →
      ∃ k, comparisonEnds s (scasPair s w) k ∧ exec (.scas ⟨b, none⟩) s = .next (advance (.scas ⟨b, none⟩)
        { s with
          di := stepped s w s.di k, cx := countLeft s k, flags := comparedFlags s w (scasPair s w) k }))

/-! ### Stack and interrupts -/

/-- The pushes: SP falls by 2 and the word goes to SS:SP; PUSH SP stores the new SP, in both its forms
(45_stack.md R290 to R293, R297). -/
def Obligations.Pushes : Prop :=
  ∀ (s : State) (b : Byte), s.tables = tRef →
    ((Instr.pushReg ⟨b, none⟩).wellFormed = true →
      exec (.pushReg ⟨b, none⟩) s = .next (advance (.pushReg ⟨b, none⟩)
        (pushed s (if b.extractLsb' 0 3 = (4 : BitVec 3) then s.sp - 2 else s.reg16 (b.extractLsb' 0 3))))) ∧
    (∀ r, (Instr.pushSreg ⟨b, none⟩ r).wellFormed = true →
      exec (.pushSreg ⟨b, none⟩ r) s = .next (advance (.pushSreg ⟨b, none⟩ r) (pushed s (s.sreg r)))) ∧
    (∀ m, (Instr.pushRm ⟨b, some m⟩).wellFormed = true →
      exec (.pushRm ⟨b, some m⟩) s = .next (advance (.pushRm ⟨b, some m⟩)
        (pushed s (if m.ea = .reg 4 then s.sp - 2 else BitVec.ofNat 16 (s.readOp .word (operand s m.ea)))))) ∧
    exec (.pushf ⟨0x9C, none⟩) s = .next (advance (.pushf ⟨0x9C, none⟩) (pushed s s.flags.word))

/-- The pops: the word at SS:SP, SP raised by 2 before the destination is written; POPF loads the nine named flags
(45_stack.md R290, R294 to R296, R298). -/
def Obligations.Pops : Prop :=
  ∀ (s : State) (b : Byte), s.tables = tRef →
    let u : State := { s with sp := s.sp + 2 }
    ((Instr.popReg ⟨b, none⟩).wellFormed = true →
      exec (.popReg ⟨b, none⟩) s = .next (advance (.popReg ⟨b, none⟩)
        (u.setReg16 (b.extractLsb' 0 3) (stackWord s 0)))) ∧
    (∀ r, (Instr.popSreg ⟨b, none⟩ r).wellFormed = true →
      exec (.popSreg ⟨b, none⟩ r) s = .next (advance (.popSreg ⟨b, none⟩ r) (u.setSreg r (stackWord s 0)))) ∧
    (∀ m, (Instr.popRm ⟨b, some m⟩).wellFormed = true →
      exec (.popRm ⟨b, some m⟩) s = .next (advance (.popRm ⟨b, some m⟩)
        (u.writeOp .word (operand s m.ea) (stackWord s 0).toNat))) ∧
    exec (.popf ⟨0x9D, none⟩) s = .next (advance (.popf ⟨0x9D, none⟩)
      { u with flags := Flags.ofWord (stackWord s 0) })

/-- The software interrupts: INT3 delivers vector 3, INT n its vector unless that is a stub vector, INTO vector 4 when OF is
set and nothing otherwise (47_io_prefix_int_halt.md R325 to R327; 60_exceptions.md R360). -/
def Obligations.SoftwareInterrupts : Prop :=
  ∀ s : State, s.tables = tRef →
    exec (.int3 ⟨0xCC, none⟩) s = .next (jumped (delivered s 3 (s.ip + 1))) ∧
    (∀ n, exec (.int ⟨0xCD, none⟩ n) s = .next
      (if n ∈ s.stubVectors then faulted (.int ⟨0xCD, none⟩ n) s .unimplementedOpcode (some .stub) (some n)
       else jumped (delivered s n (s.ip + 2)))) ∧
    exec (.into ⟨0xCE, none⟩) s = .next
      (if s.flags.of then jumped (delivered s 4 (s.ip + 1)) else advance (.into ⟨0xCE, none⟩) s)

/-- IRET undoes a delivery: from the state a delivery leaves it returns to the pushed offset, with CS, the flags, SP and
every other register as they were (60_exceptions.md R360, R365). -/
def Obligations.IretUndoesADelivery : Prop :=
  ∀ (s t : State) (vector : Byte) (ret : Word), s.tables = tRef →
    exec (.iret ⟨0xCF, none⟩) (s.deliver vector ret) = .next t →
    t.ip = ret ∧ t.cs = s.cs ∧ t.flags = s.flags ∧ (∀ n, t.reg16 n = s.reg16 n) ∧ t.ss = s.ss ∧ t.ds = s.ds ∧ t.es = s.es

/-! ### Flags, prefixes, halt, stubs, reserved encodings -/

/-- CLC, STC, CLI, STI, CLD, STD, CMC write their one flag; LAHF copies the low flags to AH and SAHF loads them from it
(46_flag_ops.md R310 to R318). -/
def Obligations.FlagInstructions : Prop :=
  ∀ (s : State) (x : Window), s.tables = tRef →
    (x.b0 = 0xF8 → decode tRef x = .clc ⟨0xF8, none⟩ ∧ mapped 0xF8 46 0 ∧
      (encode (.clc ⟨0xF8, none⟩)).length = 1 ∧
      exec (.clc ⟨0xF8, none⟩) s = .next (advance (.clc ⟨0xF8, none⟩) { s with flags := { s.flags with cf := false } })) ∧
    (x.b0 = 0xF9 → decode tRef x = .stc ⟨0xF9, none⟩ ∧ mapped 0xF9 46 0 ∧
      (encode (.stc ⟨0xF9, none⟩)).length = 1 ∧
      exec (.stc ⟨0xF9, none⟩) s = .next (advance (.stc ⟨0xF9, none⟩) { s with flags := { s.flags with cf := true } })) ∧
    (x.b0 = 0xFA → decode tRef x = .cli ⟨0xFA, none⟩ ∧ mapped 0xFA 46 9 ∧
      (encode (.cli ⟨0xFA, none⟩)).length = 1 ∧
      exec (.cli ⟨0xFA, none⟩) s = .next (advance (.cli ⟨0xFA, none⟩) { s with flags := { s.flags with ief := false } })) ∧
    (x.b0 = 0xFB → decode tRef x = .sti ⟨0xFB, none⟩ ∧ mapped 0xFB 46 9 ∧
      (encode (.sti ⟨0xFB, none⟩)).length = 1 ∧
      exec (.sti ⟨0xFB, none⟩) s = .next (advance (.sti ⟨0xFB, none⟩) { s with flags := { s.flags with ief := true } })) ∧
    (x.b0 = 0xFC → decode tRef x = .cld ⟨0xFC, none⟩ ∧ mapped 0xFC 46 10 ∧
      (encode (.cld ⟨0xFC, none⟩)).length = 1 ∧
      exec (.cld ⟨0xFC, none⟩) s = .next (advance (.cld ⟨0xFC, none⟩) { s with flags := { s.flags with df := false } })) ∧
    (x.b0 = 0xFD → decode tRef x = .std ⟨0xFD, none⟩ ∧ mapped 0xFD 46 10 ∧
      (encode (.std ⟨0xFD, none⟩)).length = 1 ∧
      exec (.std ⟨0xFD, none⟩) s = .next (advance (.std ⟨0xFD, none⟩) { s with flags := { s.flags with df := true } })) ∧
    (x.b0 = 0xF5 → decode tRef x = .cmc ⟨0xF5, none⟩ ∧ mapped 0xF5 45 0 ∧
      (encode (.cmc ⟨0xF5, none⟩)).length = 1 ∧
      exec (.cmc ⟨0xF5, none⟩) s =
        .next (advance (.cmc ⟨0xF5, none⟩) { s with flags := { s.flags with cf := !s.flags.cf } })) ∧
    (x.b0 = 0x9F → decode tRef x = .lahf ⟨0x9F, none⟩ ∧ mapped 0x9F 36 0 ∧
      (encode (.lahf ⟨0x9F, none⟩)).length = 1 ∧
      exec (.lahf ⟨0x9F, none⟩) s =
        .next (advance (.lahf ⟨0x9F, none⟩) { s with ax := s.flags.word.setWidth 8 ++ s.ax.setWidth 8 })) ∧
    (x.b0 = 0x9E → decode tRef x = .sahf ⟨0x9E, none⟩ ∧ mapped 0x9E 35 0 ∧
      (encode (.sahf ⟨0x9E, none⟩)).length = 1 ∧
      exec (.sahf ⟨0x9E, none⟩) s = .next (advance (.sahf ⟨0x9E, none⟩)
        { s with
          flags := { s.flags with
            cf := s.ax.getLsbD 8, pf := s.ax.getLsbD 10, af := s.ax.getLsbD 12, zf := s.ax.getLsbD 14
            sf := s.ax.getLsbD 15 } }))

/-- The prefixes: a segment prefix or a repeat prefix sets its latch for the next pass and keeps an active other latch alive
over its own (47_io_prefix_int_halt.md R322 to R324). -/
def Obligations.PrefixesSetTheirLatch : Prop :=
  ∀ (s : State) (b : Byte) (r : SReg), s.tables = tRef →
    ((Instr.seg ⟨b, none⟩ r).wellFormed = true →
      exec (.seg ⟨b, none⟩ r) s = .next
        { s with ip := s.ip + 1, segCnt := 1, segSel := r, repCnt := s.repCnt, passes := s.passes + 1 }) ∧
    exec (.repnz ⟨0xF2, none⟩) s = .next
      { s with ip := s.ip + 1, repCnt := 1, repMode := .repnz, segCnt := s.segCnt, passes := s.passes + 1 } ∧
    exec (.repz ⟨0xF3, none⟩) s = .next
      { s with ip := s.ip + 1, repCnt := 1, repMode := .repz, segCnt := s.segCnt, passes := s.passes + 1 }

/-- HLT completes its pass, IP behind it, and leaves the engine HALTED, where no step changes anything
(47_io_prefix_int_halt.md R328; 10_state.md R41; that HALTED has a step is the model's, notes/assumptions/2.md). -/
def Obligations.HltHaltsForGood : Prop :=
  ∀ s : State, s.tables = tRef → ∃ t, exec (.hlt ⟨0xF4, none⟩) s = .next t ∧
    t = { s with
      ip := s.ip + 1, segCnt := s.segCnt - 1, repCnt := s.repCnt - 1, passes := s.passes + 1, runState := .halted } ∧
    ∀ n, stateAfter n t = t

/-- IN and OUT raise UnimplementedOpcode with reason stub; every reserved encoding, WAIT, LOCK and ESC among them, raises it
with reason no_handler. Nothing else changes
(47_io_prefix_int_halt.md R320, R321, R329 to
R332; 30_encoding.md R131; 42_logical.md R214). -/
def Obligations.StubsAndReservedEncodingsFault : Prop :=
  ∀ (s : State) (h : Head) (port : Byte), s.tables = tRef →
    (∀ i ∈ [Instr.inImm h port, .inDx h, .outImm h port, .outDx h], i.wellFormed = true →
      exec i s = .next (faulted i s .unimplementedOpcode (some .stub) none)) ∧
    (∀ i ∈ [Instr.reservedOpcode h, .reservedWait h, .reservedLock h, .reservedEsc h, .reservedMember h],
      i.wellFormed = true → exec i s = .next (faulted i s .unimplementedOpcode (some .noHandler) none))

/-! ### What an instruction leaves unchanged -/

/-- Every general register is unchanged but an instruction's destination and those its rule updates besides (SP of the
stack instructions, SI, DI, CX of the string instructions, CX of the loops): all instructions, all operands
(40_data_movement.md R140 to R155; 41_arithmetic.md R170 to R188; 42_logical.md R200 to R214; 43_control_transfer.md R230 to
R264; 44_string.md R270 to R276; 45_stack.md R290 to R298; 46_flag_ops.md R310 to R318; 47_io_prefix_int_halt.md R320 to
R332). Those rules hold for the tables T_REF; that the statement holds for any tables is the model's, which takes the
register numbers from the opcode and ModRM bytes under any tables (notes/assumptions/10.md, 13.md, 14.md). -/
def Obligations.GeneralRegistersKept : Prop :=
  ∀ (i : Instr) (s t : State) (n : BitVec 3), exec i s = .next t → writesReg i s n = false → t.reg16 n = s.reg16 n

/-- Every segment register is unchanged but by the instructions of 10_state.md R22. That the statement holds for any tables,
also those R118 says the rules of files 40 to 47 are not written for, is the model's (notes/assumptions/10.md, 13.md, 14.md). -/
def Obligations.SegmentRegistersKept : Prop :=
  ∀ (i : Instr) (s t : State) (r : SReg), exec i s = .next t → writesSreg i r = false → t.sreg r = s.sreg r

/-- Every flag cell is unchanged but those the spec names for the instruction; TF and IF change by POPF, IRET and
interrupt delivery only, IF by CLI and STI too, DF by CLD, STD, POPF and IRET only (10_state.md R30). -/
def Obligations.FlagsKept : Prop :=
  ∀ (i : Instr) (s t : State) (k : Nat), s.tables = tRef → i.wellFormed = true → exec i s = .next t →
    writesFlag i k = false → t.flags.cell k = s.flags.cell k

/-- A fault changes no state but the run state and the record; a pass that does not fault is counted, and changes the run
state only by HLT; the tables, the parameters and the record of an earlier fault stay (60_exceptions.md R351, R352, R366;
10_state.md R40; the parameters as fields are the model's, notes/assumptions/3.md, 4.md, 24.md). -/
def Obligations.EngineStateKept : Prop :=
  ∀ (i : Instr) (s t : State), exec i s = .next t → s.runState = .running →
    t.tables = s.tables ∧ t.stubVectors = s.stubVectors ∧ t.stopAt = s.stopAt ∧
    (t.runState = .faulted → t = { s with runState := .faulted, faultRecord := t.faultRecord }) ∧
    (t.runState ≠ .faulted → t.passes = s.passes + 1 ∧ t.faultRecord = s.faultRecord ∧
      (t.runState ≠ .running → ∃ h, i = .hlt h))

/-- Memory, for an instruction that pushes nothing and is no string instruction: every byte is unchanged but those of the
memory operand it stores to, whose address is that of its ModRM operand or of its direct offset; without one, every byte
(20_memory.md R65; 30_encoding.md R109). -/
def Obligations.OperandStoresKeepOtherBytes : Prop :=
  ∀ (i : Instr) (s t : State) (a : Nat), s.tables = tRef → i.wellFormed = true → exec i s = .next t →
    pushCount i s = 0 → elementStores i s = 0 →
    (∀ b w, operandStore i s = some (b, w) → a < b ∨ b + w.bytes ≤ a) → t.mem.read a = s.mem.read a

/-- Memory, for an instruction that pushes: every byte is unchanged but those of the words it pushes, at SS:SP-2, SP-4 and
SP-6 (45_stack.md R290; 60_exceptions.md R360). -/
def Obligations.PushesKeepOtherBytes : Prop :=
  ∀ (i : Instr) (s t : State) (a : Nat), s.tables = tRef → i.wellFormed = true → exec i s = .next t →
    0 < pushCount i s →
    (∀ k, 1 ≤ k → k ≤ pushCount i s →
      a ≠ s.ss.toNat * 16 + (s.sp - BitVec.ofNat 16 (2 * k)).toNat ∧
      a ≠ s.ss.toNat * 16 + (s.sp - BitVec.ofNat 16 (2 * k)).toNat + 1) → t.mem.read a = s.mem.read a

/-- Memory, for a string instruction: every byte is unchanged but those of the destination elements of MOVS and STOS
(44_string.md R271 to R276). -/
def Obligations.StringStoresKeepOtherBytes : Prop :=
  ∀ (b : Byte) (s t : State) (a : Nat), s.tables = tRef →
    ∀ i ∈ [Instr.movs ⟨b, none⟩, .stos ⟨b, none⟩, .lods ⟨b, none⟩, .cmps ⟨b, none⟩, .scas ⟨b, none⟩],
      i.wellFormed = true → exec i s = .next t →
      (∀ k, k < elementStores i s →
        a < destAt s (Width.ofBit (b.getLsbD 0)) k ∨
        destAt s (Width.ofBit (b.getLsbD 0)) k + (Width.ofBit (b.getLsbD 0)).bytes ≤ a) →
      t.mem.read a = s.mem.read a

/-! ### Tables other than T_REF -/

/-- A memory operand for which an addressing-table entry names no register, or the multiplier is neither 0 nor 1, raises
ValueOutOfRange in every instruction that has a ModRM byte, before its handler and with nothing else changed; the
default-segment entry counts only without a segment override (30_encoding.md R100, R104, R106; 60_exceptions.md R351, R355,
R359; which entries are used is the model's choice, notes/assumptions/17.md). -/
def Obligations.ResolverFaultsFirst : Prop :=
  ∀ (i : Instr) (s : State) (m : ModRM) (f : Form), i.head.modrm = some m → foundInStep2 i = false →
    formEntries s.tables m.ea = some f →
    13 ≤ f.reg1.toNat ∨ 13 ≤ f.reg2.toNat ∨ 2 ≤ f.mult.toNat ∨ s.segCnt = 0 ∧ 13 ≤ f.defseg.toNat →
    exec i s = .next (faulted i s .valueOutOfRange none none)
end

