-- ==== Sys2Proof/Laws/Fields.lean ====
section
/-! SUPPORT. The laws of byte order, of the ModRM fields, of signed readings and of narrowing. -/

namespace Sys2Proof

theorem mkWord_loByte_hiByte (v : Word) : mkWord (loByte v) (hiByte v) = v := by
  unfold mkWord loByte hiByte
  apply BitVec.eq_of_getLsbD_eq
  intro i hi
  simp only [BitVec.getLsbD_append, BitVec.getLsbD_extractLsb']
  by_cases h : i < 8
  · simp [h]
  · simp [h, show i - 8 < 8 by omega, show 8 + (i - 8) = i by omega]

@[simp] theorem loByte_mkWord (l h : Byte) : loByte (mkWord l h) = l := by
  unfold mkWord loByte
  apply BitVec.eq_of_getLsbD_eq
  intro i hi
  rw [BitVec.getLsbD_extractLsb', BitVec.getLsbD_append]
  simp [hi]

@[simp] theorem hiByte_mkWord (l h : Byte) : hiByte (mkWord l h) = h := by
  unfold mkWord hiByte
  apply BitVec.eq_of_getLsbD_eq
  intro i hi
  rw [BitVec.getLsbD_extractLsb', BitVec.getLsbD_append]
  simp [hi]

/-- The fields of a ModRM byte are read back (30_encoding.md R94). -/
theorem modrmByte_fields : ∀ (mod : BitVec 2) (reg rm : BitVec 3),
    modField (modrmByte mod reg rm) = mod ∧ regField (modrmByte mod reg rm) = reg ∧
      rmField (modrmByte mod reg rm) = rm := by decide

theorem modrmByte_of_fields : ∀ b : Byte, modrmByte (modField b) (regField b) (rmField b) = b := by decide +kernel

end Sys2Proof
end

