-- ==== Sys2Proof/Laws/Decode.lean ====
section
/-! SUPPORT. What the decoder reads of the bytes that the encoder writes: the head, and the bytes behind it. -/

namespace Sys2Proof

theorem Window.at_ofBytes (bs : List Byte) {i : Nat} (h : i < 6) : (Window.ofBytes bs).at i = bs.getD i 0 := by
  match i, h with
  | 0, _ | 1, _ | 2, _ | 3, _ | 4, _ | 5, _ => rfl

theorem Window.at_toBytes (x : Window) {i : Nat} (h : i < 6) : x.toBytes.getD i 0 = x.at i := by
  match i, h with
  | 0, _ | 1, _ | 2, _ | 3, _ | 4, _ | 5, _ => rfl

/-- A window is the window of its bytes. -/
theorem Window.ofBytes_toBytes (x : Window) : Window.ofBytes x.toBytes = x := rfl

theorem dispList_length (ea : RM) : ea.dispList.length = ea.dispBytes := by cases ea <;> rfl

theorem encodeHead_length (h : Head) : (encodeHead h).length = h.immAt := by
  obtain ⟨op, m⟩ := h
  cases m with
  | none => rfl
  | some m => simp [encodeHead, Head.immAt, dispList_length]; omega

theorem immAt_le (h : Head) : h.immAt ≤ 4 := by
  obtain ⟨op, m⟩ := h
  cases m with
  | none => simp [Head.immAt]
  | some m => cases hm : m.ea <;> simp [Head.immAt, RM.dispBytes, hm]

/-- The operand bytes behind the head are read where `Head.immAt` says. -/
theorem Window.at_immAt (h : Head) (bs : List Byte) {k : Nat} (hk : h.immAt + k < 6) :
    (Window.ofBytes (encodeHead h ++ bs)).at (h.immAt + k) = bs.getD k 0 := by
  rw [Window.at_ofBytes _ hk, List.getD_append_right _ _ _ _ (by rw [encodeHead_length]; omega), encodeHead_length,
    Nat.add_sub_cancel_left]

/-- The operand bytes behind a lone opcode byte are read from `B1` on. -/
theorem Window.at_behindOpcode (op : Byte) (bs : List Byte) {k : Nat} (hk : 1 + k < 6) :
    (Window.ofBytes (encodeHead ⟨op, none⟩ ++ bs)).at (1 + k) = bs.getD k 0 := Window.at_immAt ⟨op, none⟩ bs hk

@[simp] theorem Window.b0_encodeHead (h : Head) (bs : List Byte) : (Window.ofBytes (encodeHead h ++ bs)).b0 = h.op := by
  obtain ⟨op, m⟩ := h
  cases m <;> rfl

/-- The ModRM operand and its displacement are read back. -/
theorem decodeEa_encodeHead (op : Byte) {m : ModRM} (hm : m.ea.wellFormed = true) (bs : List Byte) :
    regField (Window.ofBytes (encodeHead ⟨op, some m⟩ ++ bs)).b1 = m.reg ∧
      decodeEa (Window.ofBytes (encodeHead ⟨op, some m⟩ ++ bs)) = m.ea := by
  obtain ⟨reg, ea⟩ := m
  have f := fun mod rm => modrmByte_fields mod reg rm
  cases ea with
  | reg rm => exact ⟨(f 3 rm).2.1, by simp [decodeEa, encodeHead, Window.ofBytes, RM.fields, f]⟩
  | mem rm =>
    have : rm ≠ 6#3 := by simpa [RM.wellFormed] using hm
    exact ⟨(f 0 rm).2.1, by simp [decodeEa, encodeHead, Window.ofBytes, RM.fields, f, this]⟩
  | direct d =>
    exact ⟨(f 0 6).2.1, by
      simp [decodeEa, encodeHead, Window.ofBytes, RM.fields, RM.dispList, wordBytes, Window.word, Window.at, f, mkWord_loByte_hiByte]⟩
  | mem8 rm d =>
    exact ⟨(f 1 rm).2.1, by simp [decodeEa, encodeHead, Window.ofBytes, RM.fields, RM.dispList, f]⟩
  | mem16 rm d =>
    exact ⟨(f 2 rm).2.1, by
      simp [decodeEa, encodeHead, Window.ofBytes, RM.fields, RM.dispList, wordBytes, Window.word, Window.at, f, mkWord_loByte_hiByte]⟩

/-- The head is read back when the tables give its opcode a ModRM byte exactly if it has one. -/
theorem decodeHead_encodeHead (T : Tables) {h : Head} (hp : lookup T.iModSize h.op = 0 ↔ h.modrm = none)
    (hm : ∀ m, h.modrm = some m → m.ea.wellFormed = true) (bs : List Byte) :
    decodeHead T (Window.ofBytes (encodeHead h ++ bs)) = h := by
  obtain ⟨op, m⟩ := h
  cases m with
  | none => simp only [decodeHead, Window.b0_encodeHead, hp, if_true]
  | some m =>
    obtain ⟨h1, h2⟩ := decodeEa_encodeHead op (hm m rfl) bs
    have : lookup T.iModSize op ≠ 0 := fun h => by cases hp.mp h
    simp only [decodeHead, Window.b0_encodeHead, this, if_false, h1, h2]

end Sys2Proof
end

