-- ==== Sys2Proof/Laws/Memory.lean ====
section
/-! SUPPORT. The laws of the byte memory: reading after writing, and the canonical form. -/

namespace Sys2Proof.Machine

theorem Memory.read_remove (m : Memory) (a b : Nat) :
    (m.remove a).read b = if b = a then unlistedByte b else m.read b := by
  induction m with
  | nil => simp [Memory.remove, Memory.read]
  | cons c rest ih =>
    obtain ⟨k, u⟩ := c
    simp only [Memory.remove, List.filter_cons] at ih ⊢
    by_cases hk : k = a
    · subst hk
      simp only [bne_self_eq_false, Bool.false_eq_true, if_false, ih, Memory.read]
      by_cases hb : b = k
      · simp [hb]
      · simp [hb, Ne.symm hb]
    · simp only [bne_iff_ne.mpr hk, if_true, Memory.read, ih]
      by_cases hb : k = b
      · subst hb; simp [hk]
      · simp [hb]

theorem Memory.read_place (m : Memory) (a b : Nat) (v : Byte) (h : ∀ c ∈ m, c.1 ≠ a) :
    (m.place a v).read b = if b = a then v else m.read b := by
  induction m with
  | nil =>
    by_cases hb : b = a
    · simp [Memory.place, Memory.read, hb]
    · simp [Memory.place, Memory.read, hb, Ne.symm hb]
  | cons c rest ih =>
    obtain ⟨k, u⟩ := c
    have hk : k ≠ a := h (k, u) (by simp)
    have ih := ih fun c hc => h c (by simp [hc])
    unfold Memory.place
    split
    · by_cases hb : b = a
      · simp [Memory.read, hb]
      · simp [Memory.read, hb, Ne.symm hb]
    · simp only [Memory.read, ih]
      by_cases hb : k = b
      · subst hb; simp [hk]
      · simp [hb]

theorem Memory.not_mem_remove (m : Memory) (a : Nat) : ∀ c ∈ m.remove a, c.1 ≠ a := by
  intro c hc
  simpa using (List.mem_filter.mp hc).2

/-- A byte is read back, and every other byte reads as before (20_memory.md R64, R65). -/
theorem Memory.read_write (m : Memory) (a b : Nat) (v : Byte) :
    (m.write a v).read b = if b = a then v else m.read b := by
  unfold Memory.write
  split
  · rename_i hv
    rw [Memory.read_remove]
    by_cases hb : b = a <;> simp [hb, hv]
  · rw [Memory.read_place _ _ _ _ (Memory.not_mem_remove m a), Memory.read_remove]
    by_cases hb : b = a <;> simp [hb]

@[simp] theorem Memory.read_write_self (m : Memory) (a : Nat) (v : Byte) : (m.write a v).read a = v := by
  simp [Memory.read_write]

theorem Memory.read_write_of_ne (m : Memory) {a b : Nat} (h : b ≠ a) (v : Byte) :
    (m.write a v).read b = m.read b := by simp [Memory.read_write, h]

theorem Memory.read_writeWord_of_ne (m : Memory) {a b : Nat} (h0 : b ≠ a) (h1 : b ≠ a + 1) (v : Word) :
    (m.writeWord a v).read b = m.read b := by
  simp [Memory.writeWord, Memory.read_write, h0, h1]

/-- A write of an operand leaves every byte outside it alone. -/
theorem Memory.read_writeW_outside (m : Memory) (w : Width) {a b : Nat} (h : b < a ∨ a + w.bytes ≤ b) (v : Nat) :
    (m.writeW w a v).read b = m.read b := by
  cases w with
  | byte =>
    have : b ≠ a := by simp [Width.bytes] at h; omega
    simp [Memory.writeW, Memory.read_write, this]
  | word =>
    have h0 : b ≠ a := by simp [Width.bytes] at h; omega
    have h1 : b ≠ a + 1 := by simp [Width.bytes] at h; omega
    simp [Memory.writeW, Memory.read_writeWord_of_ne _ h0 h1]

@[simp] theorem Memory.readWord_writeWord_self (m : Memory) (a : Nat) (v : Word) :
    (m.writeWord a v).readWord a = v := by
  simp [Memory.readWord, Memory.writeWord, Memory.read_write, mkWord_loByte_hiByte]

/-- A word is read as before when the two words share no byte. -/
theorem Memory.readWord_writeWord_of_apart (m : Memory) {a b : Nat} (h : b + 1 < a ∨ a + 1 < b) (v : Word) :
    (m.writeWord a v).readWord b = m.readWord b := by
  unfold Memory.readWord
  rw [Memory.read_writeWord_of_ne m (by omega) (by omega), Memory.read_writeWord_of_ne m (by omega) (by omega)]

/-! ### The canonical form -/

theorem Memory.wf_iff (m : Memory) : m.wf = true ↔
    m.Pairwise (fun c d => c.1 < d.1) ∧ ∀ c ∈ m, c.1 < Config.memSize ∧ c.2 ≠ unlistedByte c.1 := by
  simp [Memory.wf]

theorem Memory.wf_nil : Memory.wf [] = true := by simp [Memory.wf]

theorem Memory.wf_remove {m : Memory} (h : m.wf = true) (a : Nat) : (m.remove a).wf = true := by
  rw [Memory.wf_iff] at h ⊢
  exact ⟨h.1.filter _, fun c hc => h.2 c (List.mem_filter.mp hc).1⟩

theorem Memory.mem_place {m : Memory} {a : Nat} {v : Byte} {c : Host.Cell} (h : c ∈ m.place a v) :
    c = (a, v) ∨ c ∈ m := by
  induction m with
  | nil => simpa [Memory.place] using h
  | cons d rest ih =>
    obtain ⟨k, u⟩ := d
    unfold Memory.place at h
    split at h
    · simpa using h
    · rcases List.mem_cons.mp h with h | h
      · simp [h]
      · rcases ih h with h | h <;> simp [h]

theorem Memory.place_pairwise {m : Memory} {a : Nat} (v : Byte) (h : m.Pairwise fun c d => c.1 < d.1)
    (ha : ∀ c ∈ m, c.1 ≠ a) : (m.place a v).Pairwise fun c d => c.1 < d.1 := by
  induction m with
  | nil => simp [Memory.place]
  | cons d rest ih =>
    obtain ⟨k, u⟩ := d
    have hk : k ≠ a := ha (k, u) (by simp)
    rw [List.pairwise_cons] at h
    unfold Memory.place
    split
    · rename_i hlt
      rw [List.pairwise_cons, List.pairwise_cons]
      refine ⟨fun c hc => ?_, h.1, h.2⟩
      rcases List.mem_cons.mp hc with rfl | hc
      · exact hlt
      · exact Nat.lt_trans hlt (h.1 c hc)
    · rw [List.pairwise_cons]
      refine ⟨fun c hc => ?_, ih h.2 fun c hc => ha c (by simp [hc])⟩
      rcases Memory.mem_place hc with rfl | hc
      · simp only; omega
      · exact h.1 c hc

/-- A byte store below MEM_SIZE keeps the canonical form. -/
theorem Memory.wf_write {m : Memory} (h : m.wf = true) {a : Nat} (ha : a < Config.memSize) (v : Byte) :
    (m.write a v).wf = true := by
  have hr := Memory.wf_remove h a
  unfold Memory.write
  split
  · exact hr
  · rename_i hv
    rw [Memory.wf_iff] at hr ⊢
    refine ⟨Memory.place_pairwise v hr.1 (Memory.not_mem_remove m a), fun c hc => ?_⟩
    rcases Memory.mem_place hc with rfl | hc
    · exact ⟨ha, hv⟩
    · exact hr.2 c hc

theorem Memory.wf_writeWord {m : Memory} (h : m.wf = true) {a : Nat} (ha : a + 1 < Config.memSize) (v : Word) :
    (m.writeWord a v).wf = true :=
  Memory.wf_write (Memory.wf_write h (by omega) _) ha _

theorem Memory.wf_writeW {m : Memory} (h : m.wf = true) (w : Width) {a : Nat} (ha : a + 1 < Config.memSize) (v : Nat) :
    (m.writeW w a v).wf = true := by
  cases w
  · exact Memory.wf_write h (by omega) _
  · exact Memory.wf_writeWord h ha _

theorem Memory.wf_writeBytes {m : Memory} (h : m.wf = true) (bs : List Byte) {a : Nat}
    (ha : a + bs.length ≤ Config.memSize) : (m.writeBytes a bs).wf = true := by
  induction bs generalizing m a with
  | nil => exact h
  | cons b rest ih =>
    simp only [List.length_cons] at ha
    exact ih (Memory.wf_write h (by omega) b) (by omega)

/-- Every byte that an operand, the stack or the fetch window at a physical address reaches exists (20_memory.md R61). -/
theorem phys_lt (seg off : Word) : phys seg off + 16 < Config.memSize := by
  have h1 := seg.isLt
  have h2 := off.isLt
  simp only [phys, Config.memSize]
  omega

end Sys2Proof.Machine
end

