-- ==== Sys2Proof/Laws/State.lean ====
section
/-! SUPPORT. One lemma per field for each named update of the state, so that no proof unfolds a record update. -/

namespace Sys2Proof.Machine

variable (s : State)

/-! ### setReg16 keeps all but the general registers -/

@[simp] theorem State.setReg16_es (n : BitVec 3) (v : Word) : (s.setReg16 n v).es = s.es := by
  unfold State.setReg16; split <;> rfl
@[simp] theorem State.setReg16_cs (n : BitVec 3) (v : Word) : (s.setReg16 n v).cs = s.cs := by
  unfold State.setReg16; split <;> rfl
@[simp] theorem State.setReg16_ss (n : BitVec 3) (v : Word) : (s.setReg16 n v).ss = s.ss := by
  unfold State.setReg16; split <;> rfl
@[simp] theorem State.setReg16_ds (n : BitVec 3) (v : Word) : (s.setReg16 n v).ds = s.ds := by
  unfold State.setReg16; split <;> rfl
@[simp] theorem State.setReg16_ip (n : BitVec 3) (v : Word) : (s.setReg16 n v).ip = s.ip := by
  unfold State.setReg16; split <;> rfl
@[simp] theorem State.setReg16_flags (n : BitVec 3) (v : Word) : (s.setReg16 n v).flags = s.flags := by
  unfold State.setReg16; split <;> rfl
@[simp] theorem State.setReg16_segCnt (n : BitVec 3) (v : Word) : (s.setReg16 n v).segCnt = s.segCnt := by
  unfold State.setReg16; split <;> rfl
@[simp] theorem State.setReg16_segSel (n : BitVec 3) (v : Word) : (s.setReg16 n v).segSel = s.segSel := by
  unfold State.setReg16; split <;> rfl
@[simp] theorem State.setReg16_repCnt (n : BitVec 3) (v : Word) : (s.setReg16 n v).repCnt = s.repCnt := by
  unfold State.setReg16; split <;> rfl
@[simp] theorem State.setReg16_repMode (n : BitVec 3) (v : Word) : (s.setReg16 n v).repMode = s.repMode := by
  unfold State.setReg16; split <;> rfl
@[simp] theorem State.setReg16_tables (n : BitVec 3) (v : Word) : (s.setReg16 n v).tables = s.tables := by
  unfold State.setReg16; split <;> rfl
@[simp] theorem State.setReg16_runState (n : BitVec 3) (v : Word) : (s.setReg16 n v).runState = s.runState := by
  unfold State.setReg16; split <;> rfl
@[simp] theorem State.setReg16_faultRecord (n : BitVec 3) (v : Word) : (s.setReg16 n v).faultRecord = s.faultRecord := by
  unfold State.setReg16; split <;> rfl
@[simp] theorem State.setReg16_mem (n : BitVec 3) (v : Word) : (s.setReg16 n v).mem = s.mem := by
  unfold State.setReg16; split <;> rfl
@[simp] theorem State.setReg16_passes (n : BitVec 3) (v : Word) : (s.setReg16 n v).passes = s.passes := by
  unfold State.setReg16; split <;> rfl
@[simp] theorem State.setReg16_stopAt (n : BitVec 3) (v : Word) : (s.setReg16 n v).stopAt = s.stopAt := by
  unfold State.setReg16; split <;> rfl
@[simp] theorem State.setReg16_stubVectors (n : BitVec 3) (v : Word) : (s.setReg16 n v).stubVectors = s.stubVectors := by
  unfold State.setReg16; split <;> rfl

/-! ### setSreg keeps all but the segment registers -/

@[simp] theorem State.setSreg_ax (r : SReg) (v : Word) : (s.setSreg r v).ax = s.ax := by
  cases r <;> rfl
@[simp] theorem State.setSreg_cx (r : SReg) (v : Word) : (s.setSreg r v).cx = s.cx := by
  cases r <;> rfl
@[simp] theorem State.setSreg_dx (r : SReg) (v : Word) : (s.setSreg r v).dx = s.dx := by
  cases r <;> rfl
@[simp] theorem State.setSreg_bx (r : SReg) (v : Word) : (s.setSreg r v).bx = s.bx := by
  cases r <;> rfl
@[simp] theorem State.setSreg_sp (r : SReg) (v : Word) : (s.setSreg r v).sp = s.sp := by
  cases r <;> rfl
@[simp] theorem State.setSreg_bp (r : SReg) (v : Word) : (s.setSreg r v).bp = s.bp := by
  cases r <;> rfl
@[simp] theorem State.setSreg_si (r : SReg) (v : Word) : (s.setSreg r v).si = s.si := by
  cases r <;> rfl
@[simp] theorem State.setSreg_di (r : SReg) (v : Word) : (s.setSreg r v).di = s.di := by
  cases r <;> rfl
@[simp] theorem State.setSreg_ip (r : SReg) (v : Word) : (s.setSreg r v).ip = s.ip := by
  cases r <;> rfl
@[simp] theorem State.setSreg_flags (r : SReg) (v : Word) : (s.setSreg r v).flags = s.flags := by
  cases r <;> rfl
@[simp] theorem State.setSreg_segCnt (r : SReg) (v : Word) : (s.setSreg r v).segCnt = s.segCnt := by
  cases r <;> rfl
@[simp] theorem State.setSreg_segSel (r : SReg) (v : Word) : (s.setSreg r v).segSel = s.segSel := by
  cases r <;> rfl
@[simp] theorem State.setSreg_repCnt (r : SReg) (v : Word) : (s.setSreg r v).repCnt = s.repCnt := by
  cases r <;> rfl
@[simp] theorem State.setSreg_repMode (r : SReg) (v : Word) : (s.setSreg r v).repMode = s.repMode := by
  cases r <;> rfl
@[simp] theorem State.setSreg_tables (r : SReg) (v : Word) : (s.setSreg r v).tables = s.tables := by
  cases r <;> rfl
@[simp] theorem State.setSreg_runState (r : SReg) (v : Word) : (s.setSreg r v).runState = s.runState := by
  cases r <;> rfl
@[simp] theorem State.setSreg_faultRecord (r : SReg) (v : Word) : (s.setSreg r v).faultRecord = s.faultRecord := by
  cases r <;> rfl
@[simp] theorem State.setSreg_mem (r : SReg) (v : Word) : (s.setSreg r v).mem = s.mem := by
  cases r <;> rfl
@[simp] theorem State.setSreg_passes (r : SReg) (v : Word) : (s.setSreg r v).passes = s.passes := by
  cases r <;> rfl
@[simp] theorem State.setSreg_stopAt (r : SReg) (v : Word) : (s.setSreg r v).stopAt = s.stopAt := by
  cases r <;> rfl
@[simp] theorem State.setSreg_stubVectors (r : SReg) (v : Word) : (s.setSreg r v).stubVectors = s.stubVectors := by
  cases r <;> rfl

/-! ### setReg8 keeps all but the general registers -/

@[simp] theorem State.setReg8_es (n : BitVec 3) (b : Byte) : (s.setReg8 n b).es = s.es := by
  simp [State.setReg8]
@[simp] theorem State.setReg8_cs (n : BitVec 3) (b : Byte) : (s.setReg8 n b).cs = s.cs := by
  simp [State.setReg8]
@[simp] theorem State.setReg8_ss (n : BitVec 3) (b : Byte) : (s.setReg8 n b).ss = s.ss := by
  simp [State.setReg8]
@[simp] theorem State.setReg8_ds (n : BitVec 3) (b : Byte) : (s.setReg8 n b).ds = s.ds := by
  simp [State.setReg8]
@[simp] theorem State.setReg8_ip (n : BitVec 3) (b : Byte) : (s.setReg8 n b).ip = s.ip := by
  simp [State.setReg8]
@[simp] theorem State.setReg8_flags (n : BitVec 3) (b : Byte) : (s.setReg8 n b).flags = s.flags := by
  simp [State.setReg8]
@[simp] theorem State.setReg8_segCnt (n : BitVec 3) (b : Byte) : (s.setReg8 n b).segCnt = s.segCnt := by
  simp [State.setReg8]
@[simp] theorem State.setReg8_segSel (n : BitVec 3) (b : Byte) : (s.setReg8 n b).segSel = s.segSel := by
  simp [State.setReg8]
@[simp] theorem State.setReg8_repCnt (n : BitVec 3) (b : Byte) : (s.setReg8 n b).repCnt = s.repCnt := by
  simp [State.setReg8]
@[simp] theorem State.setReg8_repMode (n : BitVec 3) (b : Byte) : (s.setReg8 n b).repMode = s.repMode := by
  simp [State.setReg8]
@[simp] theorem State.setReg8_tables (n : BitVec 3) (b : Byte) : (s.setReg8 n b).tables = s.tables := by
  simp [State.setReg8]
@[simp] theorem State.setReg8_runState (n : BitVec 3) (b : Byte) : (s.setReg8 n b).runState = s.runState := by
  simp [State.setReg8]
@[simp] theorem State.setReg8_faultRecord (n : BitVec 3) (b : Byte) : (s.setReg8 n b).faultRecord = s.faultRecord := by
  simp [State.setReg8]
@[simp] theorem State.setReg8_mem (n : BitVec 3) (b : Byte) : (s.setReg8 n b).mem = s.mem := by
  simp [State.setReg8]
@[simp] theorem State.setReg8_passes (n : BitVec 3) (b : Byte) : (s.setReg8 n b).passes = s.passes := by
  simp [State.setReg8]
@[simp] theorem State.setReg8_stopAt (n : BitVec 3) (b : Byte) : (s.setReg8 n b).stopAt = s.stopAt := by
  simp [State.setReg8]
@[simp] theorem State.setReg8_stubVectors (n : BitVec 3) (b : Byte) : (s.setReg8 n b).stubVectors = s.stubVectors := by
  simp [State.setReg8]

/-! ### setReg keeps all but the general registers -/

@[simp] theorem State.setReg_es (w : Width) (n : BitVec 3) (v : Nat) : (s.setReg w n v).es = s.es := by
  cases w <;> simp [State.setReg]
@[simp] theorem State.setReg_cs (w : Width) (n : BitVec 3) (v : Nat) : (s.setReg w n v).cs = s.cs := by
  cases w <;> simp [State.setReg]
@[simp] theorem State.setReg_ss (w : Width) (n : BitVec 3) (v : Nat) : (s.setReg w n v).ss = s.ss := by
  cases w <;> simp [State.setReg]
@[simp] theorem State.setReg_ds (w : Width) (n : BitVec 3) (v : Nat) : (s.setReg w n v).ds = s.ds := by
  cases w <;> simp [State.setReg]
@[simp] theorem State.setReg_ip (w : Width) (n : BitVec 3) (v : Nat) : (s.setReg w n v).ip = s.ip := by
  cases w <;> simp [State.setReg]
@[simp] theorem State.setReg_flags (w : Width) (n : BitVec 3) (v : Nat) : (s.setReg w n v).flags = s.flags := by
  cases w <;> simp [State.setReg]
@[simp] theorem State.setReg_segCnt (w : Width) (n : BitVec 3) (v : Nat) : (s.setReg w n v).segCnt = s.segCnt := by
  cases w <;> simp [State.setReg]
@[simp] theorem State.setReg_segSel (w : Width) (n : BitVec 3) (v : Nat) : (s.setReg w n v).segSel = s.segSel := by
  cases w <;> simp [State.setReg]
@[simp] theorem State.setReg_repCnt (w : Width) (n : BitVec 3) (v : Nat) : (s.setReg w n v).repCnt = s.repCnt := by
  cases w <;> simp [State.setReg]
@[simp] theorem State.setReg_repMode (w : Width) (n : BitVec 3) (v : Nat) : (s.setReg w n v).repMode = s.repMode := by
  cases w <;> simp [State.setReg]
@[simp] theorem State.setReg_tables (w : Width) (n : BitVec 3) (v : Nat) : (s.setReg w n v).tables = s.tables := by
  cases w <;> simp [State.setReg]
@[simp] theorem State.setReg_runState (w : Width) (n : BitVec 3) (v : Nat) : (s.setReg w n v).runState = s.runState := by
  cases w <;> simp [State.setReg]
@[simp] theorem State.setReg_faultRecord (w : Width) (n : BitVec 3) (v : Nat) : (s.setReg w n v).faultRecord = s.faultRecord := by
  cases w <;> simp [State.setReg]
@[simp] theorem State.setReg_mem (w : Width) (n : BitVec 3) (v : Nat) : (s.setReg w n v).mem = s.mem := by
  cases w <;> simp [State.setReg]
@[simp] theorem State.setReg_passes (w : Width) (n : BitVec 3) (v : Nat) : (s.setReg w n v).passes = s.passes := by
  cases w <;> simp [State.setReg]
@[simp] theorem State.setReg_stopAt (w : Width) (n : BitVec 3) (v : Nat) : (s.setReg w n v).stopAt = s.stopAt := by
  cases w <;> simp [State.setReg]
@[simp] theorem State.setReg_stubVectors (w : Width) (n : BitVec 3) (v : Nat) : (s.setReg w n v).stubVectors = s.stubVectors := by
  cases w <;> simp [State.setReg]

/-! ### writeOp keeps all but the general registers and memory -/

@[simp] theorem State.writeOp_es (w : Width) (x : Operand) (v : Nat) : (s.writeOp w x v).es = s.es := by
  cases x <;> simp [State.writeOp]
@[simp] theorem State.writeOp_cs (w : Width) (x : Operand) (v : Nat) : (s.writeOp w x v).cs = s.cs := by
  cases x <;> simp [State.writeOp]
@[simp] theorem State.writeOp_ss (w : Width) (x : Operand) (v : Nat) : (s.writeOp w x v).ss = s.ss := by
  cases x <;> simp [State.writeOp]
@[simp] theorem State.writeOp_ds (w : Width) (x : Operand) (v : Nat) : (s.writeOp w x v).ds = s.ds := by
  cases x <;> simp [State.writeOp]
@[simp] theorem State.writeOp_ip (w : Width) (x : Operand) (v : Nat) : (s.writeOp w x v).ip = s.ip := by
  cases x <;> simp [State.writeOp]
@[simp] theorem State.writeOp_flags (w : Width) (x : Operand) (v : Nat) : (s.writeOp w x v).flags = s.flags := by
  cases x <;> simp [State.writeOp]
@[simp] theorem State.writeOp_segCnt (w : Width) (x : Operand) (v : Nat) : (s.writeOp w x v).segCnt = s.segCnt := by
  cases x <;> simp [State.writeOp]
@[simp] theorem State.writeOp_segSel (w : Width) (x : Operand) (v : Nat) : (s.writeOp w x v).segSel = s.segSel := by
  cases x <;> simp [State.writeOp]
@[simp] theorem State.writeOp_repCnt (w : Width) (x : Operand) (v : Nat) : (s.writeOp w x v).repCnt = s.repCnt := by
  cases x <;> simp [State.writeOp]
@[simp] theorem State.writeOp_repMode (w : Width) (x : Operand) (v : Nat) : (s.writeOp w x v).repMode = s.repMode := by
  cases x <;> simp [State.writeOp]
@[simp] theorem State.writeOp_tables (w : Width) (x : Operand) (v : Nat) : (s.writeOp w x v).tables = s.tables := by
  cases x <;> simp [State.writeOp]
@[simp] theorem State.writeOp_runState (w : Width) (x : Operand) (v : Nat) : (s.writeOp w x v).runState = s.runState := by
  cases x <;> simp [State.writeOp]
@[simp] theorem State.writeOp_faultRecord (w : Width) (x : Operand) (v : Nat) : (s.writeOp w x v).faultRecord = s.faultRecord := by
  cases x <;> simp [State.writeOp]
@[simp] theorem State.writeOp_passes (w : Width) (x : Operand) (v : Nat) : (s.writeOp w x v).passes = s.passes := by
  cases x <;> simp [State.writeOp]
@[simp] theorem State.writeOp_stopAt (w : Width) (x : Operand) (v : Nat) : (s.writeOp w x v).stopAt = s.stopAt := by
  cases x <;> simp [State.writeOp]
@[simp] theorem State.writeOp_stubVectors (w : Width) (x : Operand) (v : Nat) : (s.writeOp w x v).stubVectors = s.stubVectors := by
  cases x <;> simp [State.writeOp]

/-! ### setAl keeps all but AX -/

@[simp] theorem State.setAl_cx (b : Byte) : (s.setAl b).cx = s.cx := rfl
@[simp] theorem State.setAl_dx (b : Byte) : (s.setAl b).dx = s.dx := rfl
@[simp] theorem State.setAl_bx (b : Byte) : (s.setAl b).bx = s.bx := rfl
@[simp] theorem State.setAl_sp (b : Byte) : (s.setAl b).sp = s.sp := rfl
@[simp] theorem State.setAl_bp (b : Byte) : (s.setAl b).bp = s.bp := rfl
@[simp] theorem State.setAl_si (b : Byte) : (s.setAl b).si = s.si := rfl
@[simp] theorem State.setAl_di (b : Byte) : (s.setAl b).di = s.di := rfl
@[simp] theorem State.setAl_es (b : Byte) : (s.setAl b).es = s.es := rfl
@[simp] theorem State.setAl_cs (b : Byte) : (s.setAl b).cs = s.cs := rfl
@[simp] theorem State.setAl_ss (b : Byte) : (s.setAl b).ss = s.ss := rfl
@[simp] theorem State.setAl_ds (b : Byte) : (s.setAl b).ds = s.ds := rfl
@[simp] theorem State.setAl_ip (b : Byte) : (s.setAl b).ip = s.ip := rfl
@[simp] theorem State.setAl_flags (b : Byte) : (s.setAl b).flags = s.flags := rfl
@[simp] theorem State.setAl_segCnt (b : Byte) : (s.setAl b).segCnt = s.segCnt := rfl
@[simp] theorem State.setAl_segSel (b : Byte) : (s.setAl b).segSel = s.segSel := rfl
@[simp] theorem State.setAl_repCnt (b : Byte) : (s.setAl b).repCnt = s.repCnt := rfl
@[simp] theorem State.setAl_repMode (b : Byte) : (s.setAl b).repMode = s.repMode := rfl
@[simp] theorem State.setAl_tables (b : Byte) : (s.setAl b).tables = s.tables := rfl
@[simp] theorem State.setAl_runState (b : Byte) : (s.setAl b).runState = s.runState := rfl
@[simp] theorem State.setAl_faultRecord (b : Byte) : (s.setAl b).faultRecord = s.faultRecord := rfl
@[simp] theorem State.setAl_mem (b : Byte) : (s.setAl b).mem = s.mem := rfl
@[simp] theorem State.setAl_passes (b : Byte) : (s.setAl b).passes = s.passes := rfl
@[simp] theorem State.setAl_stopAt (b : Byte) : (s.setAl b).stopAt = s.stopAt := rfl
@[simp] theorem State.setAl_stubVectors (b : Byte) : (s.setAl b).stubVectors = s.stubVectors := rfl

/-! ### setAh keeps all but AX -/

@[simp] theorem State.setAh_cx (b : Byte) : (s.setAh b).cx = s.cx := rfl
@[simp] theorem State.setAh_dx (b : Byte) : (s.setAh b).dx = s.dx := rfl
@[simp] theorem State.setAh_bx (b : Byte) : (s.setAh b).bx = s.bx := rfl
@[simp] theorem State.setAh_sp (b : Byte) : (s.setAh b).sp = s.sp := rfl
@[simp] theorem State.setAh_bp (b : Byte) : (s.setAh b).bp = s.bp := rfl
@[simp] theorem State.setAh_si (b : Byte) : (s.setAh b).si = s.si := rfl
@[simp] theorem State.setAh_di (b : Byte) : (s.setAh b).di = s.di := rfl
@[simp] theorem State.setAh_es (b : Byte) : (s.setAh b).es = s.es := rfl
@[simp] theorem State.setAh_cs (b : Byte) : (s.setAh b).cs = s.cs := rfl
@[simp] theorem State.setAh_ss (b : Byte) : (s.setAh b).ss = s.ss := rfl
@[simp] theorem State.setAh_ds (b : Byte) : (s.setAh b).ds = s.ds := rfl
@[simp] theorem State.setAh_ip (b : Byte) : (s.setAh b).ip = s.ip := rfl
@[simp] theorem State.setAh_flags (b : Byte) : (s.setAh b).flags = s.flags := rfl
@[simp] theorem State.setAh_segCnt (b : Byte) : (s.setAh b).segCnt = s.segCnt := rfl
@[simp] theorem State.setAh_segSel (b : Byte) : (s.setAh b).segSel = s.segSel := rfl
@[simp] theorem State.setAh_repCnt (b : Byte) : (s.setAh b).repCnt = s.repCnt := rfl
@[simp] theorem State.setAh_repMode (b : Byte) : (s.setAh b).repMode = s.repMode := rfl
@[simp] theorem State.setAh_tables (b : Byte) : (s.setAh b).tables = s.tables := rfl
@[simp] theorem State.setAh_runState (b : Byte) : (s.setAh b).runState = s.runState := rfl
@[simp] theorem State.setAh_faultRecord (b : Byte) : (s.setAh b).faultRecord = s.faultRecord := rfl
@[simp] theorem State.setAh_mem (b : Byte) : (s.setAh b).mem = s.mem := rfl
@[simp] theorem State.setAh_passes (b : Byte) : (s.setAh b).passes = s.passes := rfl
@[simp] theorem State.setAh_stopAt (b : Byte) : (s.setAh b).stopAt = s.stopAt := rfl
@[simp] theorem State.setAh_stubVectors (b : Byte) : (s.setAh b).stubVectors = s.stubVectors := rfl

/-! ### The stack -/

@[simp] theorem State.push_ax (v : Word) : (s.push v).ax = s.ax := rfl
@[simp] theorem State.push_cx (v : Word) : (s.push v).cx = s.cx := rfl
@[simp] theorem State.push_dx (v : Word) : (s.push v).dx = s.dx := rfl
@[simp] theorem State.push_bx (v : Word) : (s.push v).bx = s.bx := rfl
@[simp] theorem State.push_bp (v : Word) : (s.push v).bp = s.bp := rfl
@[simp] theorem State.push_si (v : Word) : (s.push v).si = s.si := rfl
@[simp] theorem State.push_di (v : Word) : (s.push v).di = s.di := rfl
@[simp] theorem State.push_es (v : Word) : (s.push v).es = s.es := rfl
@[simp] theorem State.push_cs (v : Word) : (s.push v).cs = s.cs := rfl
@[simp] theorem State.push_ss (v : Word) : (s.push v).ss = s.ss := rfl
@[simp] theorem State.push_ds (v : Word) : (s.push v).ds = s.ds := rfl
@[simp] theorem State.push_ip (v : Word) : (s.push v).ip = s.ip := rfl
@[simp] theorem State.push_flags (v : Word) : (s.push v).flags = s.flags := rfl
@[simp] theorem State.push_segCnt (v : Word) : (s.push v).segCnt = s.segCnt := rfl
@[simp] theorem State.push_segSel (v : Word) : (s.push v).segSel = s.segSel := rfl
@[simp] theorem State.push_repCnt (v : Word) : (s.push v).repCnt = s.repCnt := rfl
@[simp] theorem State.push_repMode (v : Word) : (s.push v).repMode = s.repMode := rfl
@[simp] theorem State.push_tables (v : Word) : (s.push v).tables = s.tables := rfl
@[simp] theorem State.push_runState (v : Word) : (s.push v).runState = s.runState := rfl
@[simp] theorem State.push_faultRecord (v : Word) : (s.push v).faultRecord = s.faultRecord := rfl
@[simp] theorem State.push_passes (v : Word) : (s.push v).passes = s.passes := rfl
@[simp] theorem State.push_stopAt (v : Word) : (s.push v).stopAt = s.stopAt := rfl
@[simp] theorem State.push_stubVectors (v : Word) : (s.push v).stubVectors = s.stubVectors := rfl
@[simp] theorem State.push_sp (v : Word) : (s.push v).sp = s.sp - 2 := rfl
@[simp] theorem State.push_mem (v : Word) : (s.push v).mem = s.mem.writeWord (phys s.ss (s.sp - 2)) v := rfl

@[simp] theorem State.drop_ax : s.drop.ax = s.ax := rfl
@[simp] theorem State.drop_cx : s.drop.cx = s.cx := rfl
@[simp] theorem State.drop_dx : s.drop.dx = s.dx := rfl
@[simp] theorem State.drop_bx : s.drop.bx = s.bx := rfl
@[simp] theorem State.drop_bp : s.drop.bp = s.bp := rfl
@[simp] theorem State.drop_si : s.drop.si = s.si := rfl
@[simp] theorem State.drop_di : s.drop.di = s.di := rfl
@[simp] theorem State.drop_es : s.drop.es = s.es := rfl
@[simp] theorem State.drop_cs : s.drop.cs = s.cs := rfl
@[simp] theorem State.drop_ss : s.drop.ss = s.ss := rfl
@[simp] theorem State.drop_ds : s.drop.ds = s.ds := rfl
@[simp] theorem State.drop_ip : s.drop.ip = s.ip := rfl
@[simp] theorem State.drop_flags : s.drop.flags = s.flags := rfl
@[simp] theorem State.drop_segCnt : s.drop.segCnt = s.segCnt := rfl
@[simp] theorem State.drop_segSel : s.drop.segSel = s.segSel := rfl
@[simp] theorem State.drop_repCnt : s.drop.repCnt = s.repCnt := rfl
@[simp] theorem State.drop_repMode : s.drop.repMode = s.repMode := rfl
@[simp] theorem State.drop_tables : s.drop.tables = s.tables := rfl
@[simp] theorem State.drop_runState : s.drop.runState = s.runState := rfl
@[simp] theorem State.drop_faultRecord : s.drop.faultRecord = s.faultRecord := rfl
@[simp] theorem State.drop_mem : s.drop.mem = s.mem := rfl
@[simp] theorem State.drop_passes : s.drop.passes = s.passes := rfl
@[simp] theorem State.drop_stopAt : s.drop.stopAt = s.stopAt := rfl
@[simp] theorem State.drop_stubVectors : s.drop.stubVectors = s.stubVectors := rfl
@[simp] theorem State.drop_sp : s.drop.sp = s.sp + 2 := rfl

/-! ### The end of a pass -/

@[simp] theorem State.endPass_ax : s.endPass.ax = s.ax := rfl
@[simp] theorem State.endPass_cx : s.endPass.cx = s.cx := rfl
@[simp] theorem State.endPass_dx : s.endPass.dx = s.dx := rfl
@[simp] theorem State.endPass_bx : s.endPass.bx = s.bx := rfl
@[simp] theorem State.endPass_sp : s.endPass.sp = s.sp := rfl
@[simp] theorem State.endPass_bp : s.endPass.bp = s.bp := rfl
@[simp] theorem State.endPass_si : s.endPass.si = s.si := rfl
@[simp] theorem State.endPass_di : s.endPass.di = s.di := rfl
@[simp] theorem State.endPass_es : s.endPass.es = s.es := rfl
@[simp] theorem State.endPass_cs : s.endPass.cs = s.cs := rfl
@[simp] theorem State.endPass_ss : s.endPass.ss = s.ss := rfl
@[simp] theorem State.endPass_ds : s.endPass.ds = s.ds := rfl
@[simp] theorem State.endPass_ip : s.endPass.ip = s.ip := rfl
@[simp] theorem State.endPass_flags : s.endPass.flags = s.flags := rfl
@[simp] theorem State.endPass_segSel : s.endPass.segSel = s.segSel := rfl
@[simp] theorem State.endPass_repMode : s.endPass.repMode = s.repMode := rfl
@[simp] theorem State.endPass_tables : s.endPass.tables = s.tables := rfl
@[simp] theorem State.endPass_runState : s.endPass.runState = s.runState := rfl
@[simp] theorem State.endPass_faultRecord : s.endPass.faultRecord = s.faultRecord := rfl
@[simp] theorem State.endPass_mem : s.endPass.mem = s.mem := rfl
@[simp] theorem State.endPass_stopAt : s.endPass.stopAt = s.stopAt := rfl
@[simp] theorem State.endPass_stubVectors : s.endPass.stubVectors = s.stubVectors := rfl
@[simp] theorem State.endPass_segCnt : s.endPass.segCnt = s.segCnt - 1 := rfl
@[simp] theorem State.endPass_repCnt : s.endPass.repCnt = s.repCnt - 1 := rfl
@[simp] theorem State.endPass_passes : s.endPass.passes = s.passes + 1 := rfl

/-! ### A fault -/

@[simp] theorem State.raiseFault_ax (h : Head) (k : FaultKind) (q : Option FaultReason) (v : Option Byte) :
    (s.raiseFault h k q v).ax = s.ax := rfl
@[simp] theorem State.raiseFault_cx (h : Head) (k : FaultKind) (q : Option FaultReason) (v : Option Byte) :
    (s.raiseFault h k q v).cx = s.cx := rfl
@[simp] theorem State.raiseFault_dx (h : Head) (k : FaultKind) (q : Option FaultReason) (v : Option Byte) :
    (s.raiseFault h k q v).dx = s.dx := rfl
@[simp] theorem State.raiseFault_bx (h : Head) (k : FaultKind) (q : Option FaultReason) (v : Option Byte) :
    (s.raiseFault h k q v).bx = s.bx := rfl
@[simp] theorem State.raiseFault_sp (h : Head) (k : FaultKind) (q : Option FaultReason) (v : Option Byte) :
    (s.raiseFault h k q v).sp = s.sp := rfl
@[simp] theorem State.raiseFault_bp (h : Head) (k : FaultKind) (q : Option FaultReason) (v : Option Byte) :
    (s.raiseFault h k q v).bp = s.bp := rfl
@[simp] theorem State.raiseFault_si (h : Head) (k : FaultKind) (q : Option FaultReason) (v : Option Byte) :
    (s.raiseFault h k q v).si = s.si := rfl
@[simp] theorem State.raiseFault_di (h : Head) (k : FaultKind) (q : Option FaultReason) (v : Option Byte) :
    (s.raiseFault h k q v).di = s.di := rfl
@[simp] theorem State.raiseFault_es (h : Head) (k : FaultKind) (q : Option FaultReason) (v : Option Byte) :
    (s.raiseFault h k q v).es = s.es := rfl
@[simp] theorem State.raiseFault_cs (h : Head) (k : FaultKind) (q : Option FaultReason) (v : Option Byte) :
    (s.raiseFault h k q v).cs = s.cs := rfl
@[simp] theorem State.raiseFault_ss (h : Head) (k : FaultKind) (q : Option FaultReason) (v : Option Byte) :
    (s.raiseFault h k q v).ss = s.ss := rfl
@[simp] theorem State.raiseFault_ds (h : Head) (k : FaultKind) (q : Option FaultReason) (v : Option Byte) :
    (s.raiseFault h k q v).ds = s.ds := rfl
@[simp] theorem State.raiseFault_ip (h : Head) (k : FaultKind) (q : Option FaultReason) (v : Option Byte) :
    (s.raiseFault h k q v).ip = s.ip := rfl
@[simp] theorem State.raiseFault_flags (h : Head) (k : FaultKind) (q : Option FaultReason) (v : Option Byte) :
    (s.raiseFault h k q v).flags = s.flags := rfl
@[simp] theorem State.raiseFault_segCnt (h : Head) (k : FaultKind) (q : Option FaultReason) (v : Option Byte) :
    (s.raiseFault h k q v).segCnt = s.segCnt := rfl
@[simp] theorem State.raiseFault_segSel (h : Head) (k : FaultKind) (q : Option FaultReason) (v : Option Byte) :
    (s.raiseFault h k q v).segSel = s.segSel := rfl
@[simp] theorem State.raiseFault_repCnt (h : Head) (k : FaultKind) (q : Option FaultReason) (v : Option Byte) :
    (s.raiseFault h k q v).repCnt = s.repCnt := rfl
@[simp] theorem State.raiseFault_repMode (h : Head) (k : FaultKind) (q : Option FaultReason) (v : Option Byte) :
    (s.raiseFault h k q v).repMode = s.repMode := rfl
@[simp] theorem State.raiseFault_tables (h : Head) (k : FaultKind) (q : Option FaultReason) (v : Option Byte) :
    (s.raiseFault h k q v).tables = s.tables := rfl
@[simp] theorem State.raiseFault_mem (h : Head) (k : FaultKind) (q : Option FaultReason) (v : Option Byte) :
    (s.raiseFault h k q v).mem = s.mem := rfl
@[simp] theorem State.raiseFault_passes (h : Head) (k : FaultKind) (q : Option FaultReason) (v : Option Byte) :
    (s.raiseFault h k q v).passes = s.passes := rfl
@[simp] theorem State.raiseFault_stopAt (h : Head) (k : FaultKind) (q : Option FaultReason) (v : Option Byte) :
    (s.raiseFault h k q v).stopAt = s.stopAt := rfl
@[simp] theorem State.raiseFault_stubVectors (h : Head) (k : FaultKind) (q : Option FaultReason) (v : Option Byte) :
    (s.raiseFault h k q v).stubVectors = s.stubVectors := rfl
@[simp] theorem State.raiseFault_runState (h : Head) (k : FaultKind) (q : Option FaultReason) (v : Option Byte) :
    (s.raiseFault h k q v).runState = .faulted := rfl

/-! ### Reading a register after a write -/

theorem State.reg16_setReg16 (n k : BitVec 3) (v : Word) :
    (s.setReg16 n v).reg16 k = if k = n then v else s.reg16 k := by
  have hn : n = 0 ∨ n = 1 ∨ n = 2 ∨ n = 3 ∨ n = 4 ∨ n = 5 ∨ n = 6 ∨ n = 7 := by revert n; decide
  have hk : k = 0 ∨ k = 1 ∨ k = 2 ∨ k = 3 ∨ k = 4 ∨ k = 5 ∨ k = 6 ∨ k = 7 := by revert k; decide
  rcases hn with rfl | rfl | rfl | rfl | rfl | rfl | rfl | rfl <;>
    rcases hk with rfl | rfl | rfl | rfl | rfl | rfl | rfl | rfl <;> rfl

@[simp] theorem State.reg16_setReg16_self (n : BitVec 3) (v : Word) : (s.setReg16 n v).reg16 n = v := by
  simp [State.reg16_setReg16]

theorem State.reg16_setReg16_of_ne {n k : BitVec 3} (h : k ≠ n) (v : Word) :
    (s.setReg16 n v).reg16 k = s.reg16 k := by simp [State.reg16_setReg16, h]

theorem State.sreg_setSreg (r q : SReg) (v : Word) : (s.setSreg r v).sreg q = if q = r then v else s.sreg q := by
  cases r <;> cases q <;> rfl

/-- A write of a child register leaves every other general register alone (10_state.md R25). -/
theorem State.reg16_setReg8_of_ne {n k : BitVec 3} (h : k ≠ byteParent n) (b : Byte) :
    (s.setReg8 n b).reg16 k = s.reg16 k := by simp [State.setReg8, State.reg16_setReg16_of_ne _ h]

/-- The general registers see the general registers only. -/
theorem State.reg16_congr {s t : State} (h : s.ax = t.ax ∧ s.cx = t.cx ∧ s.dx = t.dx ∧ s.bx = t.bx ∧ s.sp = t.sp ∧
    s.bp = t.bp ∧ s.si = t.si ∧ s.di = t.di) (n : BitVec 3) : s.reg16 n = t.reg16 n := by
  obtain ⟨h0, h1, h2, h3, h4, h5, h6, h7⟩ := h
  unfold State.reg16; split <;> assumption

end Sys2Proof.Machine
end

