-- ==== Sys2Proof/Laws/Exec.lean ====
section
/-! SUPPORT. What the execution of an instruction can do, said once: it is the common end of a pass applied to what a handler
answers, and a handler keeps all the engine's own state. -/

namespace Sys2Proof.Machine

/-- The common end of a pass always gives a next state. -/
theorem finish_next (h : Head) (s : State) (r : Result) : ∃ t, finish h s r = .next t := by
  cases r <;> exact ⟨_, rfl⟩

/-- The operand is a register, or memory that exists with a margin. -/
def Operand.inMemory (o : Operand) : Prop := ∀ ea a, o = .mem ea a → a + 16 < Config.memSize

theorem memOperand_inMemory {s : State} {f : Form} {d : Word} {o : Operand} (h : s.memOperand f d = some o) :
    o.inMemory := by
  unfold State.memOperand at h
  split at h
  · cases h
    intro ea a ha
    cases ha
    exact phys_lt _ _
  · cases h

theorem resolveRm_inMemory {s : State} {ea : RM} {o : Operand} (h : s.resolveRm ea = some o) : o.inMemory := by
  cases ea with
  | reg rm => cases h; intro ea a ha; cases ha
  | mem rm => exact memOperand_inMemory h
  | direct d => exact memOperand_inMemory h
  | mem8 rm d => exact memOperand_inMemory h
  | mem16 rm d => exact memOperand_inMemory h

theorem resolve_inMemory {s : State} {h : Head} {o : Operand} {reg : BitVec 3}
    (hr : s.resolve h = .operands o reg) : o.inMemory := by
  unfold State.resolve at hr
  split at hr
  · cases hr
  · split at hr
    · rename_i hm
      cases hr
      exact resolveRm_inMemory hm
    · cases hr

/-- A pass with a ModRM byte is the common end of a pass, for a fault of the resolver or what the handler answers. -/
theorem runRm_cases (h : Head) (s : State) (f : Operand → BitVec 3 → Result) :
    (∃ k, runRm h s f = finish h s (.raise k none none) ∧ ∀ o reg, s.resolve h ≠ .operands o reg) ∨
    (∃ o reg, s.resolve h = .operands o reg ∧ runRm h s f = finish h s (f o reg)) := by
  unfold runRm
  split
  · exact .inr ⟨_, _, by assumption, rfl⟩
  · rename_i hr; exact .inl ⟨_, rfl, by simp [hr]⟩
  · rename_i hr; exact .inl ⟨_, rfl, by simp [hr]⟩

/-- A pass without a ModRM operand is the common end of a pass, for a fault of the resolver or what the handler answers. -/
theorem run_cases (h : Head) (s : State) (r : Result) :
    (run h s r = finish h s (.raise .valueOutOfRange none none) ∧ s.resolve h = .valueOutOfRange) ∨
    (run h s r = finish h s r ∧ s.resolve h ≠ .valueOutOfRange) := by
  unfold run
  split
  · exact .inl ⟨rfl, by assumption⟩
  · rename_i hr; exact .inr ⟨rfl, by simp [hr]⟩
  · rename_i hr; exact .inr ⟨rfl, by simp [hr]⟩

/-- An instruction without a ModRM byte: the resolver does not run. -/
theorem run_noModRM {h : Head} (hm : h.modrm = none) (s : State) (r : Result) : run h s r = finish h s r := by
  simp [run, State.resolve, hm]

/-- An entry 0 of the flag policy changes no flag. -/
@[simp] theorem Flags.policyUnrecorded_zero (s : State) (f : Flags) : f.policyUnrecorded s 0#8 = f := rfl

/-- Step 6 does nothing where the entry of the opcode is 0, as `T_REF` has it for every handler that uses `tablePolicy`. -/
theorem tablePolicy_zero {h : Head} {s : State} (hp : s.stdPolicy h.op = 0) (r : Result) : tablePolicy h s r = r := by
  cases r <;> simp only [tablePolicy, hp] <;> rfl

theorem runTable_zero {h : Head} {s : State} (hp : s.stdPolicy h.op = 0) (r : Result) :
    runTable h s r = run h s r := by rw [runTable, tablePolicy_zero hp]

theorem runRmTable_zero {h : Head} {s : State} (hp : s.stdPolicy h.op = 0) (f : Operand → BitVec 3 → Result) :
    runRmTable h s f = runRm h s f := by simp [runRmTable, tablePolicy_zero hp]

/-- What the policy of an opcode keeps: TF, IF and DF. -/
theorem Flags.policyUnrecorded_control (s : State) (p : Byte) (f : Flags) :
    (f.policyUnrecorded s p).tf = f.tf ∧ (f.policyUnrecorded s p).ief = f.ief ∧
      (f.policyUnrecorded s p).df = f.df := by
  unfold Flags.policyUnrecorded
  simp only [Flags.szpUnrecorded, Flags.arithUnrecorded, Flags.logic]
  refine ⟨?_, ?_, ?_⟩ <;> split <;> split <;> split <;> rfl

/-- The instruction is a prefix or HLT, whose handlers write the engine's own state. -/
def writesEngine : Instr → Bool
  | .seg .. | .repnz _ | .repz _ | .hlt _ => true
  | _ => false

/-- What every handler keeps: the tables, the parameters, the pass count, the fault record; memory in canonical form; and,
but for the prefixes and HLT, the latches and the run state. -/
structure Keeps (s t : State) : Prop where
  tables : t.tables = s.tables
  stubVectors : t.stubVectors = s.stubVectors
  stopAt : t.stopAt = s.stopAt
  passes : t.passes = s.passes
  faultRecord : t.faultRecord = s.faultRecord
  mem : s.mem.wf = true → t.mem.wf = true
  segCnt : t.segCnt = s.segCnt
  segSel : t.segSel = s.segSel
  repCnt : t.repCnt = s.repCnt
  repMode : t.repMode = s.repMode
  runState : t.runState = s.runState

theorem Keeps.refl (s : State) : Keeps s s := ⟨rfl, rfl, rfl, rfl, rfl, id, rfl, rfl, rfl, rfl, rfl⟩

/-- The plain updates of a register, an offset or the flags. -/
theorem keeps_plain {s t : State} (h1 : t.tables = s.tables) (h2 : t.stubVectors = s.stubVectors)
    (h3 : t.stopAt = s.stopAt) (h4 : t.passes = s.passes) (h5 : t.faultRecord = s.faultRecord) (h6 : t.mem = s.mem)
    (h7 : t.segCnt = s.segCnt) (h8 : t.segSel = s.segSel) (h9 : t.repCnt = s.repCnt) (h10 : t.repMode = s.repMode)
    (h11 : t.runState = s.runState) : Keeps s t :=
  ⟨h1, h2, h3, h4, h5, fun h => h6 ▸ h, h7, h8, h9, h10, h11⟩

theorem Keeps.trans {s t u : State} (h : Keeps s t) (k : Keeps t u) : Keeps s u :=
  ⟨k.1.trans h.1, k.2.trans h.2, k.3.trans h.3, k.4.trans h.4, k.5.trans h.5, fun x => k.6 (h.6 x), k.7.trans h.7,
    k.8.trans h.8, k.9.trans h.9, k.10.trans h.10, k.11.trans h.11⟩

theorem Keeps.setReg16 (s : State) (n : BitVec 3) (v : Word) : Keeps s (s.setReg16 n v) := by
  constructor <;> simp

theorem Keeps.setSreg (s : State) (r : SReg) (v : Word) : Keeps s (s.setSreg r v) := by constructor <;> simp

theorem Keeps.setReg (s : State) (w : Width) (n : BitVec 3) (v : Nat) : Keeps s (s.setReg w n v) := by
  constructor <;> simp

theorem Keeps.writeOp (s : State) (w : Width) {o : Operand} (ho : o.inMemory) (v : Nat) : Keeps s (s.writeOp w o v) := by
  cases o with
  | reg n => exact Keeps.setReg s w n v
  | mem ea a =>
    have ha := ho ea a rfl
    exact ⟨rfl, rfl, rfl, rfl, rfl, fun h => Memory.wf_writeW h w (by omega) v, rfl, rfl, rfl, rfl, rfl⟩

theorem Keeps.push (s : State) (v : Word) : Keeps s (s.push v) :=
  ⟨rfl, rfl, rfl, rfl, rfl,
    fun h => Memory.wf_writeWord h (by have := phys_lt s.ss (s.sp - 2); simp only; omega) v, rfl, rfl, rfl, rfl, rfl⟩

theorem Keeps.alu (s : State) (op : AluOp) (w : Width) (p : Byte) {o : Operand} (ho : o.inMemory) (sv : Nat) :
    Keeps s (s.alu op w p o sv) := by
  have h := Keeps.writeOp s w ho (op.result w (s.readOp w o) sv s.flags.cf)
  unfold State.alu
  split
  · exact ⟨rfl, rfl, rfl, rfl, rfl, id, rfl, rfl, rfl, rfl, rfl⟩
  · exact ⟨h.1, h.2, h.3, h.4, h.5, h.6, h.7, h.8, h.9, h.10, h.11⟩

theorem Keeps.withFlags {s t : State} (h : Keeps s t) (f : Flags) : Keeps s { t with flags := f } :=
  ⟨h.1, h.2, h.3, h.4, h.5, h.6, h.7, h.8, h.9, h.10, h.11⟩

theorem Keeps.incDec (s : State) (w : Width) (p : Byte) {o : Operand} (ho : o.inMemory) (inc : Bool) :
    Keeps s (s.incDec w p o inc) := (Keeps.writeOp s w ho _).withFlags _

theorem Keeps.negate (s : State) (w : Width) {o : Operand} (ho : o.inMemory) : Keeps s (s.negate w o) :=
  (Keeps.writeOp s w ho _).withFlags _

theorem Keeps.shift (s : State) (op : ShiftOp) (w : Width) {o : Operand} (ho : o.inMemory) (n : Nat) :
    Keeps s (s.shift op w o n) := by
  unfold State.shift
  split
  · exact Keeps.refl s
  · exact (Keeps.writeOp s w ho _).withFlags _

theorem Keeps.setProduct (s : State) (w : Width) (p : Nat) : Keeps s (s.setProduct w p) := by
  cases w <;> exact ⟨rfl, rfl, rfl, rfl, rfl, id, rfl, rfl, rfl, rfl, rfl⟩

theorem Keeps.setQuotient (s : State) (w : Width) (q r : Nat) : Keeps s (s.setQuotient w q r) := by
  cases w <;> exact ⟨rfl, rfl, rfl, rfl, rfl, id, rfl, rfl, rfl, rfl, rfl⟩

theorem Keeps.deliver (s : State) (vector : Byte) (ret : Word) : Keeps s (s.deliver vector ret) := by
  have h := ((Keeps.push s s.flags.word).trans (Keeps.push _ s.cs)).trans (Keeps.push _ ret)
  exact ⟨h.1, h.2, h.3, h.4, h.5, h.6, h.7, h.8, h.9, h.10, h.11⟩

theorem Keeps.stepSi (s : State) (w : Width) : Keeps s (s.stepSi w) :=
  ⟨rfl, rfl, rfl, rfl, rfl, id, rfl, rfl, rfl, rfl, rfl⟩

theorem Keeps.stepDi (s : State) (w : Width) : Keeps s (s.stepDi w) :=
  ⟨rfl, rfl, rfl, rfl, rfl, id, rfl, rfl, rfl, rfl, rfl⟩

theorem Keeps.storeDest (s : State) (w : Width) (v : Nat) : Keeps s (s.storeDest w v) :=
  ⟨rfl, rfl, rfl, rfl, rfl,
    fun h => Memory.wf_writeW h w (by have := phys_lt s.es s.di; simp only [State.destAddr]; omega) v,
    rfl, rfl, rfl, rfl, rfl⟩

theorem Keeps.compare (s : State) (w : Width) (a b : Nat) : Keeps s (s.compare w a b) :=
  (Keeps.refl s).withFlags _

theorem Keeps.countDown (s : State) : Keeps s s.countDown := ⟨rfl, rfl, rfl, rfl, rfl, id, rfl, rfl, rfl, rfl, rfl⟩

theorem Keeps.repeatElements {element : State → State} (h : ∀ s, Keeps s (element s)) (stop : State → Bool) (n : Nat)
    (s : State) : Keeps s (repeatElements element stop n s) := by
  induction n generalizing s with
  | zero => exact Keeps.refl s
  | succ n ih =>
    have hc := (h s).trans (Keeps.countDown (element s))
    unfold Machine.repeatElements
    simp only
    split
    · exact hc
    · exact hc.trans (ih _)

theorem Keeps.runString {element : State → State} (h : ∀ s, Keeps s (element s)) (stop : State → Bool) (s : State) :
    Keeps s (s.runString element stop) := by
  unfold State.runString
  split
  · exact Keeps.repeatElements h stop _ s
  · exact h s

theorem Keeps.movsElement (s : State) (w : Width) : Keeps s (s.movsElement w) :=
  ((Keeps.storeDest s w _).trans (Keeps.stepSi _ w)).trans (Keeps.stepDi _ w)

theorem Keeps.stosElement (s : State) (w : Width) : Keeps s (s.stosElement w) :=
  (Keeps.storeDest s w _).trans (Keeps.stepDi _ w)

theorem Keeps.lodsElement (s : State) (w : Width) : Keeps s (s.lodsElement w) :=
  (Keeps.setReg s w 0 _).trans (Keeps.stepSi _ w)

theorem Keeps.cmpsElement (s : State) (w : Width) : Keeps s (s.cmpsElement w) :=
  ((Keeps.compare s w _ _).trans (Keeps.stepSi _ w)).trans (Keeps.stepDi _ w)

theorem Keeps.scasElement (s : State) (w : Width) : Keeps s (s.scasElement w) :=
  (Keeps.compare s w _ _).trans (Keeps.stepDi _ w)

theorem Keeps.drop (s : State) : Keeps s s.drop := ⟨rfl, rfl, rfl, rfl, rfl, id, rfl, rfl, rfl, rfl, rfl⟩

theorem Keeps.andReg16 {s t : State} (h : Keeps s t) (n : BitVec 3) (v : Word) : Keeps s (t.setReg16 n v) :=
  h.trans (Keeps.setReg16 t n v)

theorem Keeps.andSreg {s t : State} (h : Keeps s t) (r : SReg) (v : Word) : Keeps s (t.setSreg r v) :=
  h.trans (Keeps.setSreg t r v)

theorem Keeps.andWriteOp {s t : State} (h : Keeps s t) (w : Width) {o : Operand} (ho : o.inMemory) (v : Nat) :
    Keeps s (t.writeOp w o v) := h.trans (Keeps.writeOp t w ho v)

/-- The handler's answer is a fault, or a state that keeps the engine's own state. -/
def Result.keeps (s : State) (r : Result) : Prop := ∀ t, r = .done t ∨ r = .jump t → Keeps s t

theorem Result.keeps_done {s t : State} (h : Keeps s t) : Result.keeps s (.done t) := by
  intro u hu; rcases hu with hu | hu <;> cases hu; exact h

theorem Result.keeps_jump {s t : State} (h : Keeps s t) : Result.keeps s (.jump t) := by
  intro u hu; rcases hu with hu | hu <;> cases hu; exact h

theorem Result.keeps_raise (s : State) (k : FaultKind) (q : Option FaultReason) (v : Option Byte) :
    Result.keeps s (.raise k q v) := by
  intro u hu; rcases hu with hu | hu <;> cases hu

theorem Result.keeps_withMemory {s : State} {o : Operand} {f : Word → Nat → Result}
    (h : ∀ ea a, Result.keeps s (f ea a)) : Result.keeps s (withMemory o f) := by
  cases o
  · exact Result.keeps_raise _ _ _ _
  · exact h _ _

theorem runRm_keeps {h : Head} {s : State} {f : Operand → BitVec 3 → Result}
    (hf : ∀ o reg, o.inMemory → Result.keeps s (f o reg)) : ∃ r, runRm h s f = finish h s r ∧ Result.keeps s r := by
  rcases runRm_cases h s f with ⟨k, hk, -⟩ | ⟨o, reg, ho, hk⟩
  · exact ⟨_, hk, Result.keeps_raise _ _ _ _⟩
  · exact ⟨_, hk, hf o reg (resolve_inMemory ho)⟩

theorem Result.keeps_tablePolicy {s : State} {r : Result} (h : Head) (hr : Result.keeps s r) :
    Result.keeps s (tablePolicy h s r) := by
  cases r with
  | done t => exact Result.keeps_done ((hr t (.inl rfl)).withFlags _)
  | jump t => exact Result.keeps_jump ((hr t (.inr rfl)).withFlags _)
  | raise k q v => exact Result.keeps_raise _ _ _ _

theorem runRmTable_keeps {h : Head} {s : State} {f : Operand → BitVec 3 → Result}
    (hf : ∀ o reg, o.inMemory → Result.keeps s (f o reg)) :
    ∃ r, runRmTable h s f = finish h s r ∧ Result.keeps s r :=
  runRm_keeps fun o reg ho => Result.keeps_tablePolicy h (hf o reg ho)

theorem run_keeps {h : Head} {s : State} {q : Result} (hq : Result.keeps s q) :
    ∃ r, run h s q = finish h s r ∧ Result.keeps s r := by
  rcases run_cases h s q with ⟨hk, -⟩ | ⟨hk, -⟩
  · exact ⟨_, hk, Result.keeps_raise _ _ _ _⟩
  · exact ⟨_, hk, hq⟩

theorem runTable_keeps {h : Head} {s : State} {q : Result} (hq : Result.keeps s q) :
    ∃ r, runTable h s q = finish h s r ∧ Result.keeps s r := run_keeps (Result.keeps_tablePolicy h hq)

/-- A pass without a ModRM operand is the common end of a pass, whatever the handler answers. -/
theorem run_finish (h : Head) (s : State) (q : Result) : ∃ r, run h s q = finish h s r := by
  rcases run_cases h s q with ⟨hk, -⟩ | ⟨hk, -⟩ <;> exact ⟨_, hk⟩

theorem Operand.inMemory_reg (n : BitVec 3) : (Operand.reg n).inMemory := by intro ea a h; cases h

theorem direct_inMemory {o : Operand} (h : o.inMemory) (d : Bool) (reg : BitVec 3) : (direct d o reg).1.inMemory := by
  cases d
  · exact h
  · exact Operand.inMemory_reg reg

theorem jumpIf_keeps {s t : State} (h : Keeps s t) (hd : Head) (taken : Bool) (rel : Byte) :
    Result.keeps s (t.jumpIf hd taken rel) := by
  unfold State.jumpIf
  split
  · exact Result.keeps_jump ⟨h.1, h.2, h.3, h.4, h.5, h.6, h.7, h.8, h.9, h.10, h.11⟩
  · exact Result.keeps_done h

theorem loopJump_keeps (s : State) (h : Head) (also : Bool) (rel : Byte) :
    Result.keeps s (s.loopJump h also rel) := by
  exact jumpIf_keeps (Keeps.countDown s) h _ rel

theorem condJump_keeps (s : State) (h : Head) (rel : Byte) : Result.keeps s (s.condJump h rel) := by
  unfold State.condJump
  split
  · exact jumpIf_keeps (Keeps.refl s) h _ rel
  · exact Result.keeps_raise _ _ _ _

theorem divide_keeps (s : State) (w : Width) (v : Nat) : Result.keeps s (s.divide w v) := by
  unfold State.divide
  split
  · exact Result.keeps_raise _ _ _ _
  · split
    · exact Result.keeps_raise _ _ _ _
    · exact Result.keeps_done (Keeps.setQuotient _ _ _ _)

theorem divideSigned_keeps (s : State) (w : Width) (v : Nat) : Result.keeps s (s.divideSigned w v) := by
  unfold State.divideSigned
  simp only
  split
  · exact Result.keeps_raise _ _ _ _
  · split
    · exact Result.keeps_raise _ _ _ _
    · exact Result.keeps_done (Keeps.setQuotient _ _ _ _)

/-- The outcome is the common end of a pass that started in `s`, applied to what a handler answers: a fault, or a state that
keeps the engine's own state. -/
def Ends (h : Head) (s : State) (o : Host.Outcome State Fault Refusal) : Prop :=
  ∃ r, o = finish h s r ∧ Result.keeps s r

theorem execAddRmReg_ends (h : Head) (s : State) : Ends h s (execAddRmReg h s) :=
  runRm_keeps fun _ _ ho => Result.keeps_done (Keeps.alu s _ _ _ (direct_inMemory ho _ _) _)

theorem execAddAccImm_ends (h : Head) (imm : Word) (s : State) : Ends h s (execAddAccImm h imm s) :=
  run_keeps (Result.keeps_done (Keeps.alu s _ _ _ (Operand.inMemory_reg _) _))

theorem execAddRmImm_ends (h : Head) (imm : Word) (s : State) : Ends h s (execAddRmImm h imm s) :=
  runRm_keeps fun _ _ ho => Result.keeps_done (Keeps.alu s _ _ _ ho _)

theorem execOrRmReg_ends (h : Head) (s : State) : Ends h s (execOrRmReg h s) :=
  runRm_keeps fun _ _ ho => Result.keeps_done (Keeps.alu s _ _ _ (direct_inMemory ho _ _) _)

theorem execOrAccImm_ends (h : Head) (imm : Word) (s : State) : Ends h s (execOrAccImm h imm s) :=
  run_keeps (Result.keeps_done (Keeps.alu s _ _ _ (Operand.inMemory_reg _) _))

theorem execOrRmImm_ends (h : Head) (imm : Word) (s : State) : Ends h s (execOrRmImm h imm s) :=
  runRm_keeps fun _ _ ho => Result.keeps_done (Keeps.alu s _ _ _ ho _)

theorem execAdcRmReg_ends (h : Head) (s : State) : Ends h s (execAdcRmReg h s) :=
  runRm_keeps fun _ _ ho => Result.keeps_done (Keeps.alu s _ _ _ (direct_inMemory ho _ _) _)

theorem execAdcAccImm_ends (h : Head) (imm : Word) (s : State) : Ends h s (execAdcAccImm h imm s) :=
  run_keeps (Result.keeps_done (Keeps.alu s _ _ _ (Operand.inMemory_reg _) _))

theorem execAdcRmImm_ends (h : Head) (imm : Word) (s : State) : Ends h s (execAdcRmImm h imm s) :=
  runRm_keeps fun _ _ ho => Result.keeps_done (Keeps.alu s _ _ _ ho _)

theorem execSbbRmReg_ends (h : Head) (s : State) : Ends h s (execSbbRmReg h s) :=
  runRm_keeps fun _ _ ho => Result.keeps_done (Keeps.alu s _ _ _ (direct_inMemory ho _ _) _)

theorem execSbbAccImm_ends (h : Head) (imm : Word) (s : State) : Ends h s (execSbbAccImm h imm s) :=
  run_keeps (Result.keeps_done (Keeps.alu s _ _ _ (Operand.inMemory_reg _) _))

theorem execSbbRmImm_ends (h : Head) (imm : Word) (s : State) : Ends h s (execSbbRmImm h imm s) :=
  runRm_keeps fun _ _ ho => Result.keeps_done (Keeps.alu s _ _ _ ho _)

theorem execAndRmReg_ends (h : Head) (s : State) : Ends h s (execAndRmReg h s) :=
  runRm_keeps fun _ _ ho => Result.keeps_done (Keeps.alu s _ _ _ (direct_inMemory ho _ _) _)

theorem execAndAccImm_ends (h : Head) (imm : Word) (s : State) : Ends h s (execAndAccImm h imm s) :=
  run_keeps (Result.keeps_done (Keeps.alu s _ _ _ (Operand.inMemory_reg _) _))

theorem execAndRmImm_ends (h : Head) (imm : Word) (s : State) : Ends h s (execAndRmImm h imm s) :=
  runRm_keeps fun _ _ ho => Result.keeps_done (Keeps.alu s _ _ _ ho _)

theorem execSubRmReg_ends (h : Head) (s : State) : Ends h s (execSubRmReg h s) :=
  runRm_keeps fun _ _ ho => Result.keeps_done (Keeps.alu s _ _ _ (direct_inMemory ho _ _) _)

theorem execSubAccImm_ends (h : Head) (imm : Word) (s : State) : Ends h s (execSubAccImm h imm s) :=
  run_keeps (Result.keeps_done (Keeps.alu s _ _ _ (Operand.inMemory_reg _) _))

theorem execSubRmImm_ends (h : Head) (imm : Word) (s : State) : Ends h s (execSubRmImm h imm s) :=
  runRm_keeps fun _ _ ho => Result.keeps_done (Keeps.alu s _ _ _ ho _)

theorem execXorRmReg_ends (h : Head) (s : State) : Ends h s (execXorRmReg h s) :=
  runRm_keeps fun _ _ ho => Result.keeps_done (Keeps.alu s _ _ _ (direct_inMemory ho _ _) _)

theorem execXorAccImm_ends (h : Head) (imm : Word) (s : State) : Ends h s (execXorAccImm h imm s) :=
  run_keeps (Result.keeps_done (Keeps.alu s _ _ _ (Operand.inMemory_reg _) _))

theorem execXorRmImm_ends (h : Head) (imm : Word) (s : State) : Ends h s (execXorRmImm h imm s) :=
  runRm_keeps fun _ _ ho => Result.keeps_done (Keeps.alu s _ _ _ ho _)

theorem execCmpRmReg_ends (h : Head) (s : State) : Ends h s (execCmpRmReg h s) :=
  runRm_keeps fun _ _ ho => Result.keeps_done (Keeps.alu s _ _ _ (direct_inMemory ho _ _) _)

theorem execCmpAccImm_ends (h : Head) (imm : Word) (s : State) : Ends h s (execCmpAccImm h imm s) :=
  run_keeps (Result.keeps_done (Keeps.alu s _ _ _ (Operand.inMemory_reg _) _))

theorem execCmpRmImm_ends (h : Head) (imm : Word) (s : State) : Ends h s (execCmpRmImm h imm s) :=
  runRm_keeps fun _ _ ho => Result.keeps_done (Keeps.alu s _ _ _ ho _)

theorem execMovRmReg_ends (h : Head) (s : State) : Ends h s (execMovRmReg h s) :=
  runRmTable_keeps fun _ _ ho => Result.keeps_done (Keeps.writeOp s _ (direct_inMemory ho _ _) _)

theorem execMovRegImm_ends (h : Head) (imm : Word) (s : State) : Ends h s (execMovRegImm h imm s) :=
  runTable_keeps (Result.keeps_done (Keeps.setReg s _ _ _))

theorem execMovRmImm_ends (h : Head) (imm : Word) (s : State) : Ends h s (execMovRmImm h imm s) :=
  runRmTable_keeps fun _ _ ho => Result.keeps_done (Keeps.writeOp s _ ho _)

theorem execMovMoffs_ends (h : Head) (addr : Word) (s : State) : Ends h s (execMovMoffs h addr s) := by
  refine runTable_keeps (Result.keeps_done ?_)
  split
  · exact Keeps.writeOp s _ (o := .mem 0 _) (fun _ _ hx => by cases hx; exact phys_lt _ _) _
  · exact Keeps.setReg s _ _ _

theorem execMovRmSreg_ends (h : Head) (s : State) : Ends h s (execMovRmSreg h s) :=
  runRmTable_keeps fun _ _ ho => Result.keeps_done (Keeps.writeOp s _ ho _)

theorem execMovSregRm_ends (h : Head) (s : State) : Ends h s (execMovSregRm h s) :=
  runRmTable_keeps fun _ _ _ => Result.keeps_done (Keeps.setSreg s _ _)

theorem execXchgRmReg_ends (h : Head) (s : State) : Ends h s (execXchgRmReg h s) :=
  runRmTable_keeps fun _ _ ho => Result.keeps_done ((Keeps.writeOp s _ ho _).trans (Keeps.setReg _ _ _ _))

theorem execXchgAx_ends (h : Head) (s : State) : Ends h s (execXchgAx h s) :=
  runTable_keeps (Result.keeps_done (Keeps.andReg16 (s := s) (t := { s with ax := s.reg16 h.opReg })
    (keeps_plain rfl rfl rfl rfl rfl rfl rfl rfl rfl rfl rfl) _ _))

theorem execNop_ends (h : Head) (s : State) : Ends h s (execNop h s) :=
  runTable_keeps (Result.keeps_done (Keeps.refl s))

theorem execLea_ends (h : Head) (s : State) : Ends h s (execLea h s) :=
  runRmTable_keeps fun _ _ _ => Result.keeps_withMemory fun _ _ => Result.keeps_done (Keeps.setReg16 s _ _)

theorem execLes_ends (h : Head) (s : State) : Ends h s (execLes h s) :=
  runRmTable_keeps fun _ _ _ => Result.keeps_withMemory fun _ _ =>
    Result.keeps_done ((Keeps.setReg16 s _ _).trans (Keeps.setSreg _ _ _))

theorem execLds_ends (h : Head) (s : State) : Ends h s (execLds h s) :=
  runRmTable_keeps fun _ _ _ => Result.keeps_withMemory fun _ _ =>
    Result.keeps_done ((Keeps.setReg16 s _ _).trans (Keeps.setSreg _ _ _))

theorem execXlat_ends (h : Head) (s : State) : Ends h s (execXlat h s) :=
  runTable_keeps (Result.keeps_done (keeps_plain rfl rfl rfl rfl rfl rfl rfl rfl rfl rfl rfl))

theorem execCbw_ends (h : Head) (s : State) : Ends h s (execCbw h s) :=
  runTable_keeps (Result.keeps_done (keeps_plain rfl rfl rfl rfl rfl rfl rfl rfl rfl rfl rfl))

theorem execCwd_ends (h : Head) (s : State) : Ends h s (execCwd h s) :=
  runTable_keeps (Result.keeps_done (keeps_plain rfl rfl rfl rfl rfl rfl rfl rfl rfl rfl rfl))

theorem execIncReg_ends (h : Head) (s : State) : Ends h s (execIncReg h s) :=
  run_keeps (Result.keeps_done (Keeps.incDec s _ _ (Operand.inMemory_reg _) _))

theorem execIncRm_ends (h : Head) (s : State) : Ends h s (execIncRm h s) :=
  runRm_keeps fun _ _ ho => Result.keeps_done (Keeps.incDec s _ _ ho _)

theorem execDecReg_ends (h : Head) (s : State) : Ends h s (execDecReg h s) :=
  run_keeps (Result.keeps_done (Keeps.incDec s _ _ (Operand.inMemory_reg _) _))

theorem execDecRm_ends (h : Head) (s : State) : Ends h s (execDecRm h s) :=
  runRm_keeps fun _ _ ho => Result.keeps_done (Keeps.incDec s _ _ ho _)

theorem execNeg_ends (h : Head) (s : State) : Ends h s (execNeg h s) :=
  runRm_keeps fun _ _ ho => Result.keeps_done (Keeps.negate s _ ho)

theorem execMul_ends (h : Head) (s : State) : Ends h s (execMul h s) :=
  runRmTable_keeps fun _ _ _ => Result.keeps_done ((Keeps.setProduct s _ _).withFlags _)

theorem execImul_ends (h : Head) (s : State) : Ends h s (execImul h s) :=
  runRmTable_keeps fun _ _ _ => Result.keeps_done ((Keeps.setProduct s _ _).withFlags _)

theorem execDiv_ends (h : Head) (s : State) : Ends h s (execDiv h s) :=
  runRmTable_keeps fun _ _ _ => divide_keeps s _ _

theorem execIdiv_ends (h : Head) (s : State) : Ends h s (execIdiv h s) :=
  runRmTable_keeps fun _ _ _ => divideSigned_keeps s _ _

theorem execDaa_ends (h : Head) (s : State) : Ends h s (execDaa h s) :=
  run_keeps (Result.keeps_done (keeps_plain rfl rfl rfl rfl rfl rfl rfl rfl rfl rfl rfl))

theorem execDas_ends (h : Head) (s : State) : Ends h s (execDas h s) :=
  run_keeps (Result.keeps_done (keeps_plain rfl rfl rfl rfl rfl rfl rfl rfl rfl rfl rfl))

theorem execAaa_ends (h : Head) (s : State) : Ends h s (execAaa h s) := by
  refine runTable_keeps (Result.keeps_done ?_)
  unfold State.asciiAdjust
  split <;> exact keeps_plain rfl rfl rfl rfl rfl rfl rfl rfl rfl rfl rfl

theorem execAas_ends (h : Head) (s : State) : Ends h s (execAas h s) := by
  refine runTable_keeps (Result.keeps_done ?_)
  unfold State.asciiAdjust
  split <;> exact keeps_plain rfl rfl rfl rfl rfl rfl rfl rfl rfl rfl rfl

theorem execAam_ends (h : Head) (imm : Byte) (s : State) : Ends h s (execAam h imm s) := by
  refine run_keeps ?_
  split
  · exact Result.keeps_raise _ _ _ _
  · exact Result.keeps_done (keeps_plain rfl rfl rfl rfl rfl rfl rfl rfl rfl rfl rfl)

theorem execAad_ends (h : Head) (imm : Byte) (s : State) : Ends h s (execAad h imm s) :=
  run_keeps (Result.keeps_done (keeps_plain rfl rfl rfl rfl rfl rfl rfl rfl rfl rfl rfl))

theorem execNot_ends (h : Head) (s : State) : Ends h s (execNot h s) :=
  runRmTable_keeps fun _ _ ho => Result.keeps_done (Keeps.writeOp s _ ho _)

theorem execTestRmReg_ends (h : Head) (s : State) : Ends h s (execTestRmReg h s) :=
  runRm_keeps fun _ _ _ => Result.keeps_done ((Keeps.refl s).withFlags _)

theorem execTestAccImm_ends (h : Head) (imm : Word) (s : State) : Ends h s (execTestAccImm h imm s) :=
  run_keeps (Result.keeps_done ((Keeps.refl s).withFlags _))

theorem execTestRmImm_ends (h : Head) (imm : Word) (s : State) : Ends h s (execTestRmImm h imm s) :=
  runRm_keeps fun _ _ _ => Result.keeps_done ((Keeps.refl s).withFlags _)

theorem execRolOne_ends (h : Head) (s : State) : Ends h s (execRolOne h s) :=
  runRm_keeps fun _ _ ho => Result.keeps_done (Keeps.shift s _ _ ho _)

theorem execRolCl_ends (h : Head) (s : State) : Ends h s (execRolCl h s) :=
  runRm_keeps fun _ _ ho => Result.keeps_done (Keeps.shift s _ _ ho _)

theorem execRorOne_ends (h : Head) (s : State) : Ends h s (execRorOne h s) :=
  runRm_keeps fun _ _ ho => Result.keeps_done (Keeps.shift s _ _ ho _)

theorem execRorCl_ends (h : Head) (s : State) : Ends h s (execRorCl h s) :=
  runRm_keeps fun _ _ ho => Result.keeps_done (Keeps.shift s _ _ ho _)

theorem execRclOne_ends (h : Head) (s : State) : Ends h s (execRclOne h s) :=
  runRm_keeps fun _ _ ho => Result.keeps_done (Keeps.shift s _ _ ho _)

theorem execRclCl_ends (h : Head) (s : State) : Ends h s (execRclCl h s) :=
  runRm_keeps fun _ _ ho => Result.keeps_done (Keeps.shift s _ _ ho _)

theorem execRcrOne_ends (h : Head) (s : State) : Ends h s (execRcrOne h s) :=
  runRm_keeps fun _ _ ho => Result.keeps_done (Keeps.shift s _ _ ho _)

theorem execRcrCl_ends (h : Head) (s : State) : Ends h s (execRcrCl h s) :=
  runRm_keeps fun _ _ ho => Result.keeps_done (Keeps.shift s _ _ ho _)

theorem execShlOne_ends (h : Head) (s : State) : Ends h s (execShlOne h s) :=
  runRm_keeps fun _ _ ho => Result.keeps_done (Keeps.shift s _ _ ho _)

theorem execShlCl_ends (h : Head) (s : State) : Ends h s (execShlCl h s) :=
  runRm_keeps fun _ _ ho => Result.keeps_done (Keeps.shift s _ _ ho _)

theorem execShrOne_ends (h : Head) (s : State) : Ends h s (execShrOne h s) :=
  runRm_keeps fun _ _ ho => Result.keeps_done (Keeps.shift s _ _ ho _)

theorem execShrCl_ends (h : Head) (s : State) : Ends h s (execShrCl h s) :=
  runRm_keeps fun _ _ ho => Result.keeps_done (Keeps.shift s _ _ ho _)

theorem execSarOne_ends (h : Head) (s : State) : Ends h s (execSarOne h s) :=
  runRm_keeps fun _ _ ho => Result.keeps_done (Keeps.shift s _ _ ho _)

theorem execSarCl_ends (h : Head) (s : State) : Ends h s (execSarCl h s) :=
  runRm_keeps fun _ _ ho => Result.keeps_done (Keeps.shift s _ _ ho _)

theorem execJo_ends (h : Head) (rel : Byte) (s : State) : Ends h s (execJo h rel s) :=
  runTable_keeps (condJump_keeps s h _)

theorem execJno_ends (h : Head) (rel : Byte) (s : State) : Ends h s (execJno h rel s) :=
  runTable_keeps (condJump_keeps s h _)

theorem execJb_ends (h : Head) (rel : Byte) (s : State) : Ends h s (execJb h rel s) :=
  runTable_keeps (condJump_keeps s h _)

theorem execJnb_ends (h : Head) (rel : Byte) (s : State) : Ends h s (execJnb h rel s) :=
  runTable_keeps (condJump_keeps s h _)

theorem execJz_ends (h : Head) (rel : Byte) (s : State) : Ends h s (execJz h rel s) :=
  runTable_keeps (condJump_keeps s h _)

theorem execJnz_ends (h : Head) (rel : Byte) (s : State) : Ends h s (execJnz h rel s) :=
  runTable_keeps (condJump_keeps s h _)

theorem execJbe_ends (h : Head) (rel : Byte) (s : State) : Ends h s (execJbe h rel s) :=
  runTable_keeps (condJump_keeps s h _)

theorem execJnbe_ends (h : Head) (rel : Byte) (s : State) : Ends h s (execJnbe h rel s) :=
  runTable_keeps (condJump_keeps s h _)

theorem execJs_ends (h : Head) (rel : Byte) (s : State) : Ends h s (execJs h rel s) :=
  runTable_keeps (condJump_keeps s h _)

theorem execJns_ends (h : Head) (rel : Byte) (s : State) : Ends h s (execJns h rel s) :=
  runTable_keeps (condJump_keeps s h _)

theorem execJp_ends (h : Head) (rel : Byte) (s : State) : Ends h s (execJp h rel s) :=
  runTable_keeps (condJump_keeps s h _)

theorem execJnp_ends (h : Head) (rel : Byte) (s : State) : Ends h s (execJnp h rel s) :=
  runTable_keeps (condJump_keeps s h _)

theorem execJl_ends (h : Head) (rel : Byte) (s : State) : Ends h s (execJl h rel s) :=
  runTable_keeps (condJump_keeps s h _)

theorem execJnl_ends (h : Head) (rel : Byte) (s : State) : Ends h s (execJnl h rel s) :=
  runTable_keeps (condJump_keeps s h _)

theorem execJle_ends (h : Head) (rel : Byte) (s : State) : Ends h s (execJle h rel s) :=
  runTable_keeps (condJump_keeps s h _)

theorem execJnle_ends (h : Head) (rel : Byte) (s : State) : Ends h s (execJnle h rel s) :=
  runTable_keeps (condJump_keeps s h _)

theorem execJmpRel8_ends (h : Head) (rel : Byte) (s : State) : Ends h s (execJmpRel8 h rel s) :=
  runTable_keeps (Result.keeps_jump (keeps_plain rfl rfl rfl rfl rfl rfl rfl rfl rfl rfl rfl))

theorem execJmpRel16_ends (h : Head) (rel : Word) (s : State) : Ends h s (execJmpRel16 h rel s) :=
  runTable_keeps (Result.keeps_jump (keeps_plain rfl rfl rfl rfl rfl rfl rfl rfl rfl rfl rfl))

theorem execJmpFar_ends (h : Head) (off : Word) (seg : Word) (s : State) : Ends h s (execJmpFar h off seg s) :=
  runTable_keeps (Result.keeps_jump (keeps_plain rfl rfl rfl rfl rfl rfl rfl rfl rfl rfl rfl))

theorem execJmpRm_ends (h : Head) (s : State) : Ends h s (execJmpRm h s) :=
  runRmTable_keeps fun _ _ _ => Result.keeps_jump (keeps_plain rfl rfl rfl rfl rfl rfl rfl rfl rfl rfl rfl)

theorem execJmpFarRm_ends (h : Head) (s : State) : Ends h s (execJmpFarRm h s) :=
  runRmTable_keeps fun _ _ _ => Result.keeps_withMemory fun _ _ =>
    Result.keeps_jump (keeps_plain rfl rfl rfl rfl rfl rfl rfl rfl rfl rfl rfl)

theorem execCallRel_ends (h : Head) (rel : Word) (s : State) : Ends h s (execCallRel h rel s) :=
  runTable_keeps (Result.keeps_jump ((Keeps.push s _).trans (keeps_plain rfl rfl rfl rfl rfl rfl rfl rfl rfl rfl rfl)))

theorem execCallFar_ends (h : Head) (off : Word) (seg : Word) (s : State) : Ends h s (execCallFar h off seg s) :=
  runTable_keeps (Result.keeps_jump (((Keeps.push s _).trans (Keeps.push _ _)).trans
    (keeps_plain rfl rfl rfl rfl rfl rfl rfl rfl rfl rfl rfl)))

theorem execCallRm_ends (h : Head) (s : State) : Ends h s (execCallRm h s) :=
  runRmTable_keeps fun _ _ _ => Result.keeps_jump ((Keeps.push s _).trans
    (keeps_plain rfl rfl rfl rfl rfl rfl rfl rfl rfl rfl rfl))

theorem execCallFarRm_ends (h : Head) (s : State) : Ends h s (execCallFarRm h s) :=
  runRmTable_keeps fun _ _ _ => Result.keeps_withMemory fun _ _ =>
    Result.keeps_jump (((Keeps.push s _).trans (Keeps.push _ _)).trans (keeps_plain rfl rfl rfl rfl rfl rfl rfl rfl rfl rfl rfl))

theorem execRet_ends (h : Head) (s : State) : Ends h s (execRet h s) :=
  runTable_keeps (Result.keeps_jump (keeps_plain rfl rfl rfl rfl rfl rfl rfl rfl rfl rfl rfl))

theorem execRetImm_ends (h : Head) (imm : Word) (s : State) : Ends h s (execRetImm h imm s) :=
  runTable_keeps (Result.keeps_jump (keeps_plain rfl rfl rfl rfl rfl rfl rfl rfl rfl rfl rfl))

theorem execRetf_ends (h : Head) (s : State) : Ends h s (execRetf h s) :=
  runTable_keeps (Result.keeps_jump (keeps_plain rfl rfl rfl rfl rfl rfl rfl rfl rfl rfl rfl))

theorem execRetfImm_ends (h : Head) (imm : Word) (s : State) : Ends h s (execRetfImm h imm s) :=
  runTable_keeps (Result.keeps_jump (keeps_plain rfl rfl rfl rfl rfl rfl rfl rfl rfl rfl rfl))

theorem execIret_ends (h : Head) (s : State) : Ends h s (execIret h s) :=
  runTable_keeps (Result.keeps_jump (keeps_plain rfl rfl rfl rfl rfl rfl rfl rfl rfl rfl rfl))

theorem execLoopnz_ends (h : Head) (rel : Byte) (s : State) : Ends h s (execLoopnz h rel s) :=
  runTable_keeps (loopJump_keeps s h _ rel)

theorem execLoopz_ends (h : Head) (rel : Byte) (s : State) : Ends h s (execLoopz h rel s) :=
  runTable_keeps (loopJump_keeps s h _ rel)

theorem execLoop_ends (h : Head) (rel : Byte) (s : State) : Ends h s (execLoop h rel s) :=
  runTable_keeps (loopJump_keeps s h _ rel)

theorem execJcxz_ends (h : Head) (rel : Byte) (s : State) : Ends h s (execJcxz h rel s) :=
  runTable_keeps (jumpIf_keeps (Keeps.refl s) h _ _)

theorem execMovs_ends (h : Head) (s : State) : Ends h s (execMovs h s) :=
  runTable_keeps (Result.keeps_done (Keeps.runString (fun t => Keeps.movsElement t _) _ s))

theorem execStos_ends (h : Head) (s : State) : Ends h s (execStos h s) :=
  runTable_keeps (Result.keeps_done (Keeps.runString (fun t => Keeps.stosElement t _) _ s))

theorem execLods_ends (h : Head) (s : State) : Ends h s (execLods h s) :=
  runTable_keeps (Result.keeps_done (Keeps.runString (fun t => Keeps.lodsElement t _) _ s))

theorem execCmps_ends (h : Head) (s : State) : Ends h s (execCmps h s) :=
  run_keeps (Result.keeps_done (Keeps.runString (fun t => Keeps.cmpsElement t _) _ s))

theorem execScas_ends (h : Head) (s : State) : Ends h s (execScas h s) :=
  run_keeps (Result.keeps_done (Keeps.runString (fun t => Keeps.scasElement t _) _ s))

theorem execPushReg_ends (h : Head) (s : State) : Ends h s (execPushReg h s) := by
  refine runTable_keeps (Result.keeps_done ?_)
  split <;> exact Keeps.push s _

theorem execPushSreg_ends (h : Head) (r : SReg) (s : State) : Ends h s (execPushSreg h r s) :=
  runTable_keeps (Result.keeps_done (Keeps.push s _))

theorem execPushRm_ends (h : Head) (s : State) : Ends h s (execPushRm h s) :=
  runRmTable_keeps fun _ _ _ => Result.keeps_done (by split <;> exact Keeps.push s _)

theorem execPopReg_ends (h : Head) (s : State) : Ends h s (execPopReg h s) :=
  runTable_keeps (Result.keeps_done ((Keeps.drop s).andReg16 _ _))

theorem execPopSreg_ends (h : Head) (r : SReg) (s : State) : Ends h s (execPopSreg h r s) :=
  runTable_keeps (Result.keeps_done ((Keeps.drop s).andSreg _ _))

theorem execPopRm_ends (h : Head) (s : State) : Ends h s (execPopRm h s) :=
  runRmTable_keeps fun _ _ ho => Result.keeps_done ((Keeps.drop s).andWriteOp _ ho _)

theorem execPushf_ends (h : Head) (s : State) : Ends h s (execPushf h s) :=
  runTable_keeps (Result.keeps_done (Keeps.push s _))

theorem execPopf_ends (h : Head) (s : State) : Ends h s (execPopf h s) :=
  runTable_keeps (Result.keeps_done (keeps_plain rfl rfl rfl rfl rfl rfl rfl rfl rfl rfl rfl))

theorem execClc_ends (h : Head) (s : State) : Ends h s (execClc h s) :=
  runTable_keeps (Result.keeps_done (keeps_plain rfl rfl rfl rfl rfl rfl rfl rfl rfl rfl rfl))

theorem execStc_ends (h : Head) (s : State) : Ends h s (execStc h s) :=
  runTable_keeps (Result.keeps_done (keeps_plain rfl rfl rfl rfl rfl rfl rfl rfl rfl rfl rfl))

theorem execCli_ends (h : Head) (s : State) : Ends h s (execCli h s) :=
  runTable_keeps (Result.keeps_done (keeps_plain rfl rfl rfl rfl rfl rfl rfl rfl rfl rfl rfl))

theorem execSti_ends (h : Head) (s : State) : Ends h s (execSti h s) :=
  runTable_keeps (Result.keeps_done (keeps_plain rfl rfl rfl rfl rfl rfl rfl rfl rfl rfl rfl))

theorem execCld_ends (h : Head) (s : State) : Ends h s (execCld h s) :=
  runTable_keeps (Result.keeps_done (keeps_plain rfl rfl rfl rfl rfl rfl rfl rfl rfl rfl rfl))

theorem execStd_ends (h : Head) (s : State) : Ends h s (execStd h s) :=
  runTable_keeps (Result.keeps_done (keeps_plain rfl rfl rfl rfl rfl rfl rfl rfl rfl rfl rfl))

theorem execCmc_ends (h : Head) (s : State) : Ends h s (execCmc h s) :=
  runTable_keeps (Result.keeps_done (keeps_plain rfl rfl rfl rfl rfl rfl rfl rfl rfl rfl rfl))

theorem execLahf_ends (h : Head) (s : State) : Ends h s (execLahf h s) :=
  runTable_keeps (Result.keeps_done (keeps_plain rfl rfl rfl rfl rfl rfl rfl rfl rfl rfl rfl))

theorem execSahf_ends (h : Head) (s : State) : Ends h s (execSahf h s) :=
  runTable_keeps (Result.keeps_done (keeps_plain rfl rfl rfl rfl rfl rfl rfl rfl rfl rfl rfl))

theorem execInImm_ends (h : Head) (port : Byte) (s : State) : Ends h s (execInImm h port s) :=
  run_keeps (Result.keeps_raise _ _ _ _)

theorem execInDx_ends (h : Head) (s : State) : Ends h s (execInDx h s) :=
  run_keeps (Result.keeps_raise _ _ _ _)

theorem execOutImm_ends (h : Head) (port : Byte) (s : State) : Ends h s (execOutImm h port s) :=
  run_keeps (Result.keeps_raise _ _ _ _)

theorem execOutDx_ends (h : Head) (s : State) : Ends h s (execOutDx h s) :=
  run_keeps (Result.keeps_raise _ _ _ _)

theorem execInt3_ends (h : Head) (s : State) : Ends h s (execInt3 h s) :=
  runTable_keeps (Result.keeps_jump (Keeps.deliver s _ _))

theorem execInt_ends (h : Head) (vector : Byte) (s : State) : Ends h s (execInt h vector s) := by
  refine runTable_keeps ?_
  split
  · exact Result.keeps_raise _ _ _ _
  · exact Result.keeps_jump (Keeps.deliver s _ _)

theorem execInto_ends (h : Head) (s : State) : Ends h s (execInto h s) := by
  refine runTable_keeps ?_
  split
  · exact Result.keeps_jump (Keeps.deliver s _ _)
  · exact Result.keeps_done (Keeps.refl s)

theorem execReservedOpcode_ends (h : Head) (s : State) : Ends h s (execReservedOpcode h s) :=
  ⟨_, rfl, Result.keeps_raise _ _ _ _⟩

theorem execReservedWait_ends (h : Head) (s : State) : Ends h s (execReservedWait h s) :=
  ⟨_, rfl, Result.keeps_raise _ _ _ _⟩

theorem execReservedLock_ends (h : Head) (s : State) : Ends h s (execReservedLock h s) :=
  ⟨_, rfl, Result.keeps_raise _ _ _ _⟩

theorem execReservedEsc_ends (h : Head) (s : State) : Ends h s (execReservedEsc h s) :=
  ⟨_, rfl, Result.keeps_raise _ _ _ _⟩

theorem execReservedMember_ends (h : Head) (s : State) : Ends h s (execReservedMember h s) :=
  run_keeps (Result.keeps_raise _ _ _ _)

/-- Every instruction but the prefixes and HLT ends so. -/
theorem exec_ends (i : Instr) (s : State) (hw : writesEngine i = false) : Ends i.head s (exec i s) := by
  cases i with
  | addRmReg h => exact execAddRmReg_ends h s
  | addAccImm h imm => exact execAddAccImm_ends h imm s
  | addRmImm h imm => exact execAddRmImm_ends h imm s
  | orRmReg h => exact execOrRmReg_ends h s
  | orAccImm h imm => exact execOrAccImm_ends h imm s
  | orRmImm h imm => exact execOrRmImm_ends h imm s
  | adcRmReg h => exact execAdcRmReg_ends h s
  | adcAccImm h imm => exact execAdcAccImm_ends h imm s
  | adcRmImm h imm => exact execAdcRmImm_ends h imm s
  | sbbRmReg h => exact execSbbRmReg_ends h s
  | sbbAccImm h imm => exact execSbbAccImm_ends h imm s
  | sbbRmImm h imm => exact execSbbRmImm_ends h imm s
  | andRmReg h => exact execAndRmReg_ends h s
  | andAccImm h imm => exact execAndAccImm_ends h imm s
  | andRmImm h imm => exact execAndRmImm_ends h imm s
  | subRmReg h => exact execSubRmReg_ends h s
  | subAccImm h imm => exact execSubAccImm_ends h imm s
  | subRmImm h imm => exact execSubRmImm_ends h imm s
  | xorRmReg h => exact execXorRmReg_ends h s
  | xorAccImm h imm => exact execXorAccImm_ends h imm s
  | xorRmImm h imm => exact execXorRmImm_ends h imm s
  | cmpRmReg h => exact execCmpRmReg_ends h s
  | cmpAccImm h imm => exact execCmpAccImm_ends h imm s
  | cmpRmImm h imm => exact execCmpRmImm_ends h imm s
  | movRmReg h => exact execMovRmReg_ends h s
  | movRegImm h imm => exact execMovRegImm_ends h imm s
  | movRmImm h imm => exact execMovRmImm_ends h imm s
  | movMoffs h addr => exact execMovMoffs_ends h addr s
  | movRmSreg h => exact execMovRmSreg_ends h s
  | movSregRm h => exact execMovSregRm_ends h s
  | xchgRmReg h => exact execXchgRmReg_ends h s
  | xchgAx h => exact execXchgAx_ends h s
  | nop h => exact execNop_ends h s
  | lea h => exact execLea_ends h s
  | les h => exact execLes_ends h s
  | lds h => exact execLds_ends h s
  | xlat h => exact execXlat_ends h s
  | cbw h => exact execCbw_ends h s
  | cwd h => exact execCwd_ends h s
  | incReg h => exact execIncReg_ends h s
  | incRm h => exact execIncRm_ends h s
  | decReg h => exact execDecReg_ends h s
  | decRm h => exact execDecRm_ends h s
  | neg h => exact execNeg_ends h s
  | mul h => exact execMul_ends h s
  | imul h => exact execImul_ends h s
  | div h => exact execDiv_ends h s
  | idiv h => exact execIdiv_ends h s
  | daa h => exact execDaa_ends h s
  | das h => exact execDas_ends h s
  | aaa h => exact execAaa_ends h s
  | aas h => exact execAas_ends h s
  | aam h imm => exact execAam_ends h imm s
  | aad h imm => exact execAad_ends h imm s
  | not h => exact execNot_ends h s
  | testRmReg h => exact execTestRmReg_ends h s
  | testAccImm h imm => exact execTestAccImm_ends h imm s
  | testRmImm h imm => exact execTestRmImm_ends h imm s
  | rolOne h => exact execRolOne_ends h s
  | rolCl h => exact execRolCl_ends h s
  | rorOne h => exact execRorOne_ends h s
  | rorCl h => exact execRorCl_ends h s
  | rclOne h => exact execRclOne_ends h s
  | rclCl h => exact execRclCl_ends h s
  | rcrOne h => exact execRcrOne_ends h s
  | rcrCl h => exact execRcrCl_ends h s
  | shlOne h => exact execShlOne_ends h s
  | shlCl h => exact execShlCl_ends h s
  | shrOne h => exact execShrOne_ends h s
  | shrCl h => exact execShrCl_ends h s
  | sarOne h => exact execSarOne_ends h s
  | sarCl h => exact execSarCl_ends h s
  | jo h rel => exact execJo_ends h rel s
  | jno h rel => exact execJno_ends h rel s
  | jb h rel => exact execJb_ends h rel s
  | jnb h rel => exact execJnb_ends h rel s
  | jz h rel => exact execJz_ends h rel s
  | jnz h rel => exact execJnz_ends h rel s
  | jbe h rel => exact execJbe_ends h rel s
  | jnbe h rel => exact execJnbe_ends h rel s
  | js h rel => exact execJs_ends h rel s
  | jns h rel => exact execJns_ends h rel s
  | jp h rel => exact execJp_ends h rel s
  | jnp h rel => exact execJnp_ends h rel s
  | jl h rel => exact execJl_ends h rel s
  | jnl h rel => exact execJnl_ends h rel s
  | jle h rel => exact execJle_ends h rel s
  | jnle h rel => exact execJnle_ends h rel s
  | jmpRel8 h rel => exact execJmpRel8_ends h rel s
  | jmpRel16 h rel => exact execJmpRel16_ends h rel s
  | jmpFar h off seg => exact execJmpFar_ends h off seg s
  | jmpRm h => exact execJmpRm_ends h s
  | jmpFarRm h => exact execJmpFarRm_ends h s
  | callRel h rel => exact execCallRel_ends h rel s
  | callFar h off seg => exact execCallFar_ends h off seg s
  | callRm h => exact execCallRm_ends h s
  | callFarRm h => exact execCallFarRm_ends h s
  | ret h => exact execRet_ends h s
  | retImm h imm => exact execRetImm_ends h imm s
  | retf h => exact execRetf_ends h s
  | retfImm h imm => exact execRetfImm_ends h imm s
  | iret h => exact execIret_ends h s
  | loopnz h rel => exact execLoopnz_ends h rel s
  | loopz h rel => exact execLoopz_ends h rel s
  | loop h rel => exact execLoop_ends h rel s
  | jcxz h rel => exact execJcxz_ends h rel s
  | movs h => exact execMovs_ends h s
  | stos h => exact execStos_ends h s
  | lods h => exact execLods_ends h s
  | cmps h => exact execCmps_ends h s
  | scas h => exact execScas_ends h s
  | pushReg h => exact execPushReg_ends h s
  | pushSreg h r => exact execPushSreg_ends h r s
  | pushRm h => exact execPushRm_ends h s
  | popReg h => exact execPopReg_ends h s
  | popSreg h r => exact execPopSreg_ends h r s
  | popRm h => exact execPopRm_ends h s
  | pushf h => exact execPushf_ends h s
  | popf h => exact execPopf_ends h s
  | clc h => exact execClc_ends h s
  | stc h => exact execStc_ends h s
  | cli h => exact execCli_ends h s
  | sti h => exact execSti_ends h s
  | cld h => exact execCld_ends h s
  | std h => exact execStd_ends h s
  | cmc h => exact execCmc_ends h s
  | lahf h => exact execLahf_ends h s
  | sahf h => exact execSahf_ends h s
  | inImm h port => exact execInImm_ends h port s
  | inDx h => exact execInDx_ends h s
  | outImm h port => exact execOutImm_ends h port s
  | outDx h => exact execOutDx_ends h s
  | int3 h => exact execInt3_ends h s
  | int h vector => exact execInt_ends h vector s
  | into h => exact execInto_ends h s
  | reservedOpcode h => exact execReservedOpcode_ends h s
  | reservedWait h => exact execReservedWait_ends h s
  | reservedLock h => exact execReservedLock_ends h s
  | reservedEsc h => exact execReservedEsc_ends h s
  | reservedMember h => exact execReservedMember_ends h s
  | seg h r => cases hw
  | repnz h => cases hw
  | repz h => cases hw
  | hlt h => cases hw

/-- Every instruction is the common end of a pass applied to what a handler answers. -/
theorem exec_finish (i : Instr) (s : State) : ∃ r, exec i s = finish i.head s r := by
  cases hw : writesEngine i with
  | false => obtain ⟨r, hr, -⟩ := exec_ends i s hw; exact ⟨r, hr⟩
  | true =>
    cases i with
    | seg h r => exact run_finish _ _ _
    | repnz h => exact run_finish _ _ _
    | repz h => exact run_finish _ _ _
    | hlt h => exact run_finish _ _ _
    | _ => cases hw

end Sys2Proof.Machine
end

