-- ==== Sys2Proof/Laws/Tables.lean ====
section
/-! SUPPORT. What the reference tables hold, read row by row: the lengths, the ModRM bytes and the flag
policies of the opcode bytes. -/

namespace Sys2Proof

/-- The entries from index `k` on are the values of `f`. -/
def rowsAre (f : Nat → Nat) (rows : List Byte) (k : Nat) : Bool :=
  match rows with
  | [] => true
  | b :: rest => Nat.beq b.toNat (f k) && rowsAre f rest (k + 1)

theorem rowsAre_get {f : Nat → Nat} {rows : List Byte} {k : Nat} (h : rowsAre f rows k = true) (i : Nat)
    (hi : i < rows.length) : rows[i].toNat = f (k + i) := by
  induction rows generalizing k i with
  | nil => simp at hi
  | cons b rest ih =>
    simp only [rowsAre, Bool.and_eq_true, Nat.beq_eq] at h
    cases i with
    | zero => exact h.1
    | succ i =>
      have := ih h.2 i (by simpa using hi)
      rwa [show k + 1 + i = k + (i + 1) by omega] at this

/-- An entry of a table given by its rows. -/
theorem lookup_rows {rows : List Byte} (h : rows.length = 256) (i : Byte) :
    lookup ⟨⟨rows⟩, h⟩ i = rows[i.toNat]'(by rw [h]; exact i.isLt) := rfl

/-- An entry of a table whose rows are the values of `f`. -/
theorem lookup_rowsAre {f : Nat → Nat} {rows : List Byte} (h : rows.length = 256) (hr : rowsAre f rows 0 = true)
    (i : Byte) : (lookup ⟨⟨rows⟩, h⟩ i).toNat = f i.toNat := by
  have := rowsAre_get hr i.toNat (by rw [h]; exact i.isLt)
  rw [Nat.zero_add] at this
  exact this

/-- `I_MOD_SIZE` of `T_REF` (30_encoding.md R124). -/
def modSize (k : Nat) : Nat :=
  bif (Nat.blt k 0x40 && Nat.blt (k % 8) 4) || (Nat.ble 0x80 k && Nat.blt k 0x90) || (Nat.ble 0xC4 k && Nat.ble k 0xC7) ||
    (Nat.ble 0xD0 k && Nat.ble k 0xD3) || Nat.beq k 0xF6 || Nat.beq k 0xF7 || Nat.beq k 0xFE || Nat.beq k 0xFF then 1 else 0

/-- `I_W_SIZE` of `T_REF` (R123). -/
def widthSize (k : Nat) : Nat :=
  bif (Nat.blt k 0x40 && Nat.ble 4 (k % 8) && Nat.ble (k % 8) 5) || (Nat.ble 0x80 k && Nat.ble k 0x82) ||
    (Nat.ble 0xA8 k && Nat.ble k 0xA9) || (Nat.ble 0xB0 k && Nat.ble k 0xBF) || (Nat.ble 0xC6 k && Nat.ble k 0xC7) then 1
  else 0

/-- `BASE_INST_SIZE` of `T_REF` (R123): the opcode and ModRM bytes with the operand bytes whose number the width does not
change. -/
def baseSize (k : Nat) : Nat :=
  bif Nat.beq k 0x9A || Nat.beq k 0xEA then 5
  else bif Nat.beq k 0x83 || (Nat.ble 0xA0 k && Nat.ble k 0xA3) || Nat.beq k 0xC2 || Nat.beq k 0xCA || Nat.beq k 0xE8 ||
    Nat.beq k 0xE9 then 3
  else bif Nat.beq (modSize k) 1 || (Nat.ble 0x70 k && Nat.ble k 0x7F) || Nat.beq k 0xCD || Nat.beq k 0xD4 ||
    Nat.beq k 0xD5 || (Nat.ble 0xE0 k && Nat.ble k 0xE7) || Nat.beq k 0xEB then 2
  else 1

/-- `STD_FLAGS` of `T_REF` (R122): SZP is 1, SZP with ARITH 3, SZP with LOGIC 5. -/
def flagPolicy (k : Nat) : Nat :=
  bif Nat.blt k 0x40 && Nat.ble (k % 8) 5 then
    bif Nat.beq (k / 8) 0 || Nat.beq (k / 8) 5 || Nat.beq (k / 8) 7 then 3
    else bif Nat.beq (k / 8) 2 || Nat.beq (k / 8) 3 then 1
    else 5
  else bif Nat.beq k 0x84 || Nat.beq k 0x85 || Nat.beq k 0xA8 || Nat.beq k 0xA9 then 5
  else bif (Nat.ble 0x40 k && Nat.ble k 0x4F) || Nat.beq k 0x27 || Nat.beq k 0x2F || Nat.beq k 0xD4 || Nat.beq k 0xD5 then 1
  else 0

theorem stdFlagsRows_are : rowsAre flagPolicy stdFlagsRows 0 = true := by decide +kernel
theorem iModSizeRows_are : rowsAre modSize iModSizeRows 0 = true := by decide +kernel
theorem iWSizeRows_are : rowsAre widthSize iWSizeRows 0 = true := by decide +kernel
theorem baseInstSizeRows_are : rowsAre baseSize baseInstSizeRows 0 = true := by decide +kernel

theorem lookup_stdFlags (op : Byte) : (lookup tRef.stdFlags op).toNat = flagPolicy op.toNat :=
  lookup_rowsAre stdFlagsRows_length stdFlagsRows_are op

/-- The entry of an opcode byte whose handler leaves the flags alone. -/
theorem lookup_stdFlags_zero {op : Byte} (h : flagPolicy op.toNat = 0) : lookup tRef.stdFlags op = 0 :=
  BitVec.eq_of_toNat_eq (by rw [lookup_stdFlags, h]; rfl)

theorem lookup_iModSize (op : Byte) : (lookup tRef.iModSize op).toNat = modSize op.toNat :=
  lookup_rowsAre iModSizeRows_length iModSizeRows_are op

theorem lookup_iWSize (op : Byte) : (lookup tRef.iWSize op).toNat = widthSize op.toNat :=
  lookup_rowsAre iWSizeRows_length iWSizeRows_are op

theorem lookup_baseInstSize (op : Byte) : (lookup tRef.baseInstSize op).toNat = baseSize op.toNat :=
  lookup_rowsAre baseInstSizeRows_length baseInstSizeRows_are op

end Sys2Proof
end

