-- ==== Sys2Proof/Laws/Operands.lean ====
section
/-! SUPPORT. The addressing forms of the reference tables, and what a read and a write of an operand touch. -/

namespace Sys2Proof.Machine

/-- The register entries of `T_REF` for a form without displacement (30_encoding.md R105, R128). -/
theorem formZero_tRef : ∀ rm : BitVec 3, Tables.formZero tRef rm =
    match rm.toNat with
    | 0 => ⟨3, 6, 0, 11⟩
    | 1 => ⟨3, 7, 0, 11⟩
    | 2 => ⟨5, 6, 0, 10⟩
    | 3 => ⟨5, 7, 0, 10⟩
    | 4 => ⟨6, 12, 0, 11⟩
    | 5 => ⟨7, 12, 0, 11⟩
    | 6 => ⟨12, 12, 1, 11⟩
    | _ => ⟨3, 12, 0, 11⟩ := by decide

/-- The register entries of `T_REF` for a form with a displacement (30_encoding.md R105, R128). -/
theorem formDisp_tRef : ∀ rm : BitVec 3, Tables.formDisp tRef rm =
    match rm.toNat with
    | 0 => ⟨3, 6, 1, 11⟩
    | 1 => ⟨3, 7, 1, 11⟩
    | 2 => ⟨5, 6, 1, 10⟩
    | 3 => ⟨5, 7, 1, 10⟩
    | 4 => ⟨6, 12, 1, 11⟩
    | 5 => ⟨7, 12, 1, 11⟩
    | 6 => ⟨5, 12, 1, 10⟩
    | _ => ⟨3, 12, 1, 11⟩ := by decide

/-- A memory operand exists for a form whose entries are register numbers and whose multiplier is 0 or 1. -/
theorem memOperand_some (s : State) (f : Form) (d : Word) (h1 : f.reg1.toNat ≤ 12) (h2 : f.reg2.toNat ≤ 12)
    (h3 : f.mult.toNat ≤ 1) (h4 : f.defseg.toNat ≤ 12) : ∃ o, s.memOperand f d = some o := by
  have reg : ∀ n : Byte, n.toNat ≤ 12 → ∃ v, s.tableReg n = some v := by
    intro n hn
    unfold State.tableReg
    generalize n.toNat = k at hn ⊢
    interval_cases k <;> exact ⟨_, rfl⟩
  obtain ⟨r1, e1⟩ := reg _ h1
  obtain ⟨r2, e2⟩ := reg _ h2
  obtain ⟨g, e4⟩ := reg _ h4
  have e3 : ∃ m, scaledDisp f.mult d = some m := by
    unfold scaledDisp
    generalize f.mult.toNat = k at h3 ⊢
    interval_cases k <;> exact ⟨_, rfl⟩
  obtain ⟨m, e3⟩ := e3
  have e5 : ∃ sg, s.formSegment f = some sg := by
    unfold State.formSegment
    split
    · exact ⟨_, rfl⟩
    · exact ⟨g, e4⟩
  obtain ⟨sg, e5⟩ := e5
  exact ⟨_, by simp only [State.memOperand, e1, e2, e3, e5]; rfl⟩

/-- An entry above 12 names no register (60_exceptions.md R355). -/
theorem tableReg_none (s : State) {n : Byte} (h : 13 ≤ n.toNat) : s.tableReg n = none := by
  unfold State.tableReg
  split <;> first | omega | rfl

/-- A multiplier above 1 is none (60_exceptions.md R355). -/
theorem scaledDisp_none {m : Byte} (d : Word) (h : 2 ≤ m.toNat) : scaledDisp m d = none := by
  unfold scaledDisp
  split <;> first | omega | rfl

/-- A form with an entry that is used and is out of range gives no operand. -/
theorem memOperand_none (s : State) (f : Form) (d : Word)
    (h : 13 ≤ f.reg1.toNat ∨ 13 ≤ f.reg2.toNat ∨ 2 ≤ f.mult.toNat ∨ s.segCnt = 0 ∧ 13 ≤ f.defseg.toNat) :
    s.memOperand f d = none := by
  unfold State.memOperand
  split
  · rename_i h1 h2 h3 h4
    rcases h with h | h | h | ⟨h0, h⟩
    · rw [tableReg_none s h] at h1; cases h1
    · rw [tableReg_none s h] at h2; cases h2
    · rw [scaledDisp_none _ h] at h3; cases h3
    · simp [State.formSegment, State.segActive, h0, tableReg_none s h] at h4
  · rfl

/-- With the tables `T_REF` the resolver never fails (60_exceptions.md R355). -/
theorem resolveRm_some {s : State} (h : s.tables = tRef) (ea : RM) : ∃ o, s.resolveRm ea = some o := by
  have z := fun rm d => memOperand_some s (Tables.formZero tRef rm) d (by revert rm; decide) (by revert rm; decide)
    (by revert rm; decide) (by revert rm; decide)
  have p := fun rm d => memOperand_some s (Tables.formDisp tRef rm) d (by revert rm; decide) (by revert rm; decide)
    (by revert rm; decide) (by revert rm; decide)
  rw [← h] at z p
  cases ea with
  | reg rm => exact ⟨_, rfl⟩
  | mem rm => exact z rm 0
  | direct d => exact z 6 d
  | mem8 rm d => exact p rm _
  | mem16 rm d => exact p rm d

/-- What a write of an operand does to memory: nothing for a register operand. -/
theorem writeOp_mem (s : State) (w : Width) (o : Operand) (v : Nat) :
    (s.writeOp w o v).mem = match o with | .reg _ => s.mem | .mem _ a => s.mem.writeW w a v := by
  cases o with
  | reg n => cases w <;> simp [State.writeOp, State.setReg, State.setReg8, State.setReg16] <;> split <;> rfl
  | mem ea a => rfl

end Sys2Proof.Machine
end

