-- ==== Sys2Proof/Laws/PerInstr.lean ====
section
/-! SUPPORT. What holds of every instruction as syntax, one lemma for each constructor. The family `Shape`: a well-formed
instruction has a ModRM byte exactly when the tables `T_REF` give its opcode byte one, and the operand of it is in the form
its bytes have (30_encoding.md R94, R107, R124). The family `Length`: the length formula gives its encoded length (R112). -/

namespace Sys2Proof.Laws

open Sys2Proof.Machine

/-- The head has a ModRM byte exactly when the tables give its opcode byte one, in its encoded form. -/
def HeadShape (h : Head) : Prop :=
  (lookup tRef.iModSize h.op = 0 ↔ h.modrm = none) ∧ ∀ m, h.modrm = some m → m.ea.wellFormed = true

/-- The statement of the family: the head of a well-formed instruction has that shape. -/
def Shape.Statement (i : Instr) : Prop := i.wellFormed = true → HeadShape i.head

theorem both {a b : Bool} (h : (a && b) = true) : a = true ∧ b = true := by simpa using h

theorem hasRm_of_hasDigit {h : Head} {k : BitVec 3} (hd : h.hasDigit k = true) : h.hasRm = true := by
  unfold Head.hasDigit at hd
  unfold Head.hasRm
  split at hd
  · exact (Bool.and_eq_true _ _ ▸ hd).1
  · cases hd

theorem hasRm_of_hasSreg {h : Head} (hd : h.hasSreg = true) : h.hasRm = true := by
  unfold Head.hasSreg at hd
  unfold Head.hasRm
  split at hd
  · exact (Bool.and_eq_true _ _ ▸ hd).1
  · cases hd

/-- With a ModRM byte, for an opcode byte that has one. -/
theorem shape_rm {h : Head} (ho : lookup tRef.iModSize h.op ≠ 0) (hm : h.hasRm = true) : HeadShape h := by
  obtain ⟨op, m⟩ := h
  cases m with
  | none => cases hm
  | some m => exact ⟨⟨fun h => absurd h ho, fun h => by cases h⟩, fun k hk => by cases hk; exact hm⟩

/-- Without a ModRM byte, for an opcode byte that has none. -/
theorem shape_noRm {h : Head} (ho : lookup tRef.iModSize h.op = 0) (hm : h.noRm = true) : HeadShape h := by
  obtain ⟨op, m⟩ := h
  cases m with
  | none => exact ⟨⟨fun _ => rfl, fun _ => ho⟩, fun k hk => by cases hk⟩
  | some m => cases hm

/-- An opcode byte in a range has the value that every byte of the range has. -/
theorem range_of_in {h : Head} {lo hi : Nat} (ho : h.opIn lo hi = true) {f : Nat → Nat} {v : Nat}
    (t : ((List.range (hi + 1 - lo)).all fun k => Nat.beq (f (lo + k)) v) = true) : f h.op.toNat = v := by
  simp only [Head.opIn, Bool.and_eq_true, decide_eq_true_eq] at ho
  have := List.all_eq_true.mp t (h.op.toNat - lo) (by simp; omega)
  simpa [show lo + (h.op.toNat - lo) = h.op.toNat by omega] using this

theorem value_of_is {h : Head} {op : Byte} (ho : h.opIs op = true) {f : Nat → Nat} {v : Nat} (t : f op.toNat = v) :
    f h.op.toNat = v := by
  simp only [Head.opIs, beq_iff_eq] at ho
  exact ho ▸ t

theorem modRM_of {h : Head} (t : modSize h.op.toNat = 1) : lookup tRef.iModSize h.op ≠ 0 := fun hc => by
  have := lookup_iModSize h.op
  rw [hc, t] at this
  cases this

theorem noModRM_of {h : Head} (t : modSize h.op.toNat = 0) : lookup tRef.iModSize h.op = 0 := by
  have := lookup_iModSize h.op
  rw [t] at this
  exact BitVec.eq_of_toNat_eq this

/-- An opcode byte in a range in which every one has a ModRM byte. -/
theorem modRM_in {h : Head} {lo hi : Nat} (ho : h.opIn lo hi = true)
    (t : ((List.range (hi + 1 - lo)).all fun k => Nat.beq (modSize (lo + k)) 1) = true) :
    lookup tRef.iModSize h.op ≠ 0 := modRM_of (range_of_in ho t)

/-- An opcode byte in a range in which none has a ModRM byte. -/
theorem noModRM_in {h : Head} {lo hi : Nat} (ho : h.opIn lo hi = true)
    (t : ((List.range (hi + 1 - lo)).all fun k => Nat.beq (modSize (lo + k)) 0) = true) :
    lookup tRef.iModSize h.op = 0 := noModRM_of (range_of_in ho t)

theorem modRM_is {h : Head} {op : Byte} (ho : h.opIs op = true) (t : modSize op.toNat = 1) :
    lookup tRef.iModSize h.op ≠ 0 := modRM_of (value_of_is ho t)

theorem noModRM_is {h : Head} {op : Byte} (ho : h.opIs op = true) (t : modSize op.toNat = 0) :
    lookup tRef.iModSize h.op = 0 := noModRM_of (value_of_is ho t)

theorem noModRM_sreg {h : Head} {base : Byte} (r : SReg) (ho : h.opIs (sregOp r base) = true)
    (t : ∀ r, modSize (sregOp r base).toNat = 0) : lookup tRef.iModSize h.op = 0 := noModRM_is ho (t r)

theorem noModRM_reserved {h : Head} (ho : h.isReservedByte = true) : lookup tRef.iModSize h.op = 0 := by
  simp only [Head.isReservedByte, Bool.or_eq_true] at ho
  rcases ho with ((((ho | ho) | ho) | ho) | ho) | ho
  · exact noModRM_is ho rfl
  · exact noModRM_in ho rfl
  · exact noModRM_in ho rfl
  · exact noModRM_in ho rfl
  · exact noModRM_is ho rfl
  · exact noModRM_is ho rfl

theorem shape_member {h : Head} (hw : h.isReservedMember = true) : HeadShape h := by
  obtain ⟨op, m⟩ := h
  cases m with
  | none => cases hw
  | some m =>
    simp only [Head.isReservedMember, Bool.and_eq_true, Bool.or_eq_true] at hw
    refine shape_rm ?_ hw.1
    rcases hw.2 with ((((⟨ho | ho, _⟩ | ⟨ho | ho, _⟩) | ⟨ho, _⟩) | ⟨ho, _⟩) | ⟨ho, _⟩) | ⟨ho, _⟩
    · exact modRM_is ho rfl
    · exact modRM_is ho rfl
    · exact modRM_is ho rfl
    · exact modRM_in ho rfl
    · exact modRM_in ho rfl
    · exact modRM_in ho rfl
    · exact modRM_is ho rfl
    · exact modRM_is ho rfl

theorem Shape.addRmReg (h : Head) : Statement (.addRmReg h) := fun hw =>
  shape_rm (modRM_in (both hw).1 rfl) (both hw).2

theorem Shape.addAccImm (h : Head) (imm : Word) : Statement (.addAccImm h imm) := fun hw =>
  shape_noRm (noModRM_in (both (both hw).1).1 rfl) (both (both hw).1).2

theorem Shape.addRmImm (h : Head) (imm : Word) : Statement (.addRmImm h imm) := fun hw =>
  shape_rm (modRM_in (both (both hw).1).1 rfl) (hasRm_of_hasDigit (both (both hw).1).2)

theorem Shape.orRmReg (h : Head) : Statement (.orRmReg h) := fun hw =>
  shape_rm (modRM_in (both hw).1 rfl) (both hw).2

theorem Shape.orAccImm (h : Head) (imm : Word) : Statement (.orAccImm h imm) := fun hw =>
  shape_noRm (noModRM_in (both (both hw).1).1 rfl) (both (both hw).1).2

theorem Shape.orRmImm (h : Head) (imm : Word) : Statement (.orRmImm h imm) := fun hw =>
  shape_rm (modRM_in (both (both hw).1).1 rfl) (hasRm_of_hasDigit (both (both hw).1).2)

theorem Shape.adcRmReg (h : Head) : Statement (.adcRmReg h) := fun hw =>
  shape_rm (modRM_in (both hw).1 rfl) (both hw).2

theorem Shape.adcAccImm (h : Head) (imm : Word) : Statement (.adcAccImm h imm) := fun hw =>
  shape_noRm (noModRM_in (both (both hw).1).1 rfl) (both (both hw).1).2

theorem Shape.adcRmImm (h : Head) (imm : Word) : Statement (.adcRmImm h imm) := fun hw =>
  shape_rm (modRM_in (both (both hw).1).1 rfl) (hasRm_of_hasDigit (both (both hw).1).2)

theorem Shape.sbbRmReg (h : Head) : Statement (.sbbRmReg h) := fun hw =>
  shape_rm (modRM_in (both hw).1 rfl) (both hw).2

theorem Shape.sbbAccImm (h : Head) (imm : Word) : Statement (.sbbAccImm h imm) := fun hw =>
  shape_noRm (noModRM_in (both (both hw).1).1 rfl) (both (both hw).1).2

theorem Shape.sbbRmImm (h : Head) (imm : Word) : Statement (.sbbRmImm h imm) := fun hw =>
  shape_rm (modRM_in (both (both hw).1).1 rfl) (hasRm_of_hasDigit (both (both hw).1).2)

theorem Shape.andRmReg (h : Head) : Statement (.andRmReg h) := fun hw =>
  shape_rm (modRM_in (both hw).1 rfl) (both hw).2

theorem Shape.andAccImm (h : Head) (imm : Word) : Statement (.andAccImm h imm) := fun hw =>
  shape_noRm (noModRM_in (both (both hw).1).1 rfl) (both (both hw).1).2

theorem Shape.andRmImm (h : Head) (imm : Word) : Statement (.andRmImm h imm) := fun hw =>
  shape_rm (modRM_in (both (both hw).1).1 rfl) (hasRm_of_hasDigit (both (both hw).1).2)

theorem Shape.subRmReg (h : Head) : Statement (.subRmReg h) := fun hw =>
  shape_rm (modRM_in (both hw).1 rfl) (both hw).2

theorem Shape.subAccImm (h : Head) (imm : Word) : Statement (.subAccImm h imm) := fun hw =>
  shape_noRm (noModRM_in (both (both hw).1).1 rfl) (both (both hw).1).2

theorem Shape.subRmImm (h : Head) (imm : Word) : Statement (.subRmImm h imm) := fun hw =>
  shape_rm (modRM_in (both (both hw).1).1 rfl) (hasRm_of_hasDigit (both (both hw).1).2)

theorem Shape.xorRmReg (h : Head) : Statement (.xorRmReg h) := fun hw =>
  shape_rm (modRM_in (both hw).1 rfl) (both hw).2

theorem Shape.xorAccImm (h : Head) (imm : Word) : Statement (.xorAccImm h imm) := fun hw =>
  shape_noRm (noModRM_in (both (both hw).1).1 rfl) (both (both hw).1).2

theorem Shape.xorRmImm (h : Head) (imm : Word) : Statement (.xorRmImm h imm) := fun hw =>
  shape_rm (modRM_in (both (both hw).1).1 rfl) (hasRm_of_hasDigit (both (both hw).1).2)

theorem Shape.cmpRmReg (h : Head) : Statement (.cmpRmReg h) := fun hw =>
  shape_rm (modRM_in (both hw).1 rfl) (both hw).2

theorem Shape.cmpAccImm (h : Head) (imm : Word) : Statement (.cmpAccImm h imm) := fun hw =>
  shape_noRm (noModRM_in (both (both hw).1).1 rfl) (both (both hw).1).2

theorem Shape.cmpRmImm (h : Head) (imm : Word) : Statement (.cmpRmImm h imm) := fun hw =>
  shape_rm (modRM_in (both (both hw).1).1 rfl) (hasRm_of_hasDigit (both (both hw).1).2)

theorem Shape.movRmReg (h : Head) : Statement (.movRmReg h) := fun hw =>
  shape_rm (modRM_in (both hw).1 rfl) (both hw).2

theorem Shape.movRegImm (h : Head) (imm : Word) : Statement (.movRegImm h imm) := fun hw =>
  shape_noRm (noModRM_in (both (both hw).1).1 rfl) (both (both hw).1).2

theorem Shape.movRmImm (h : Head) (imm : Word) : Statement (.movRmImm h imm) := fun hw =>
  shape_rm (modRM_in (both (both hw).1).1 rfl) (hasRm_of_hasDigit (both (both hw).1).2)

theorem Shape.movMoffs (h : Head) (addr : Word) : Statement (.movMoffs h addr) := fun hw =>
  shape_noRm (noModRM_in (both hw).1 rfl) (both hw).2

theorem Shape.movRmSreg (h : Head) : Statement (.movRmSreg h) := fun hw =>
  shape_rm (modRM_is (both hw).1 rfl) (hasRm_of_hasSreg (both hw).2)

theorem Shape.movSregRm (h : Head) : Statement (.movSregRm h) := fun hw =>
  shape_rm (modRM_is (both hw).1 rfl) (hasRm_of_hasSreg (both hw).2)

theorem Shape.xchgRmReg (h : Head) : Statement (.xchgRmReg h) := fun hw =>
  shape_rm (modRM_in (both hw).1 rfl) (both hw).2

theorem Shape.xchgAx (h : Head) : Statement (.xchgAx h) := fun hw =>
  shape_noRm (noModRM_in (both hw).1 rfl) (both hw).2

theorem Shape.nop (h : Head) : Statement (.nop h) := fun hw =>
  shape_noRm (noModRM_is (both hw).1 rfl) (both hw).2

theorem Shape.lea (h : Head) : Statement (.lea h) := fun hw =>
  shape_rm (modRM_is (both hw).1 rfl) (both hw).2

theorem Shape.les (h : Head) : Statement (.les h) := fun hw =>
  shape_rm (modRM_is (both hw).1 rfl) (both hw).2

theorem Shape.lds (h : Head) : Statement (.lds h) := fun hw =>
  shape_rm (modRM_is (both hw).1 rfl) (both hw).2

theorem Shape.xlat (h : Head) : Statement (.xlat h) := fun hw =>
  shape_noRm (noModRM_is (both hw).1 rfl) (both hw).2

theorem Shape.cbw (h : Head) : Statement (.cbw h) := fun hw =>
  shape_noRm (noModRM_is (both hw).1 rfl) (both hw).2

theorem Shape.cwd (h : Head) : Statement (.cwd h) := fun hw =>
  shape_noRm (noModRM_is (both hw).1 rfl) (both hw).2

theorem Shape.incReg (h : Head) : Statement (.incReg h) := fun hw =>
  shape_noRm (noModRM_in (both hw).1 rfl) (both hw).2

theorem Shape.incRm (h : Head) : Statement (.incRm h) := fun hw =>
  shape_rm (modRM_in (both hw).1 rfl) (hasRm_of_hasDigit (both hw).2)

theorem Shape.decReg (h : Head) : Statement (.decReg h) := fun hw =>
  shape_noRm (noModRM_in (both hw).1 rfl) (both hw).2

theorem Shape.decRm (h : Head) : Statement (.decRm h) := fun hw =>
  shape_rm (modRM_in (both hw).1 rfl) (hasRm_of_hasDigit (both hw).2)

theorem Shape.neg (h : Head) : Statement (.neg h) := fun hw =>
  shape_rm (modRM_in (both hw).1 rfl) (hasRm_of_hasDigit (both hw).2)

theorem Shape.mul (h : Head) : Statement (.mul h) := fun hw =>
  shape_rm (modRM_in (both hw).1 rfl) (hasRm_of_hasDigit (both hw).2)

theorem Shape.imul (h : Head) : Statement (.imul h) := fun hw =>
  shape_rm (modRM_in (both hw).1 rfl) (hasRm_of_hasDigit (both hw).2)

theorem Shape.div (h : Head) : Statement (.div h) := fun hw =>
  shape_rm (modRM_in (both hw).1 rfl) (hasRm_of_hasDigit (both hw).2)

theorem Shape.idiv (h : Head) : Statement (.idiv h) := fun hw =>
  shape_rm (modRM_in (both hw).1 rfl) (hasRm_of_hasDigit (both hw).2)

theorem Shape.daa (h : Head) : Statement (.daa h) := fun hw =>
  shape_noRm (noModRM_is (both hw).1 rfl) (both hw).2

theorem Shape.das (h : Head) : Statement (.das h) := fun hw =>
  shape_noRm (noModRM_is (both hw).1 rfl) (both hw).2

theorem Shape.aaa (h : Head) : Statement (.aaa h) := fun hw =>
  shape_noRm (noModRM_is (both hw).1 rfl) (both hw).2

theorem Shape.aas (h : Head) : Statement (.aas h) := fun hw =>
  shape_noRm (noModRM_is (both hw).1 rfl) (both hw).2

theorem Shape.aam (h : Head) (imm : Byte) : Statement (.aam h imm) := fun hw =>
  shape_noRm (noModRM_is (both hw).1 rfl) (both hw).2

theorem Shape.aad (h : Head) (imm : Byte) : Statement (.aad h imm) := fun hw =>
  shape_noRm (noModRM_is (both hw).1 rfl) (both hw).2

theorem Shape.not (h : Head) : Statement (.not h) := fun hw =>
  shape_rm (modRM_in (both hw).1 rfl) (hasRm_of_hasDigit (both hw).2)

theorem Shape.testRmReg (h : Head) : Statement (.testRmReg h) := fun hw =>
  shape_rm (modRM_in (both hw).1 rfl) (both hw).2

theorem Shape.testAccImm (h : Head) (imm : Word) : Statement (.testAccImm h imm) := fun hw =>
  shape_noRm (noModRM_in (both (both hw).1).1 rfl) (both (both hw).1).2

theorem Shape.testRmImm (h : Head) (imm : Word) : Statement (.testRmImm h imm) := fun hw =>
  shape_rm (modRM_in (both (both hw).1).1 rfl) (hasRm_of_hasDigit (both (both hw).1).2)

theorem Shape.rolOne (h : Head) : Statement (.rolOne h) := fun hw =>
  shape_rm (modRM_in (both hw).1 rfl) (hasRm_of_hasDigit (both hw).2)

theorem Shape.rolCl (h : Head) : Statement (.rolCl h) := fun hw =>
  shape_rm (modRM_in (both hw).1 rfl) (hasRm_of_hasDigit (both hw).2)

theorem Shape.rorOne (h : Head) : Statement (.rorOne h) := fun hw =>
  shape_rm (modRM_in (both hw).1 rfl) (hasRm_of_hasDigit (both hw).2)

theorem Shape.rorCl (h : Head) : Statement (.rorCl h) := fun hw =>
  shape_rm (modRM_in (both hw).1 rfl) (hasRm_of_hasDigit (both hw).2)

theorem Shape.rclOne (h : Head) : Statement (.rclOne h) := fun hw =>
  shape_rm (modRM_in (both hw).1 rfl) (hasRm_of_hasDigit (both hw).2)

theorem Shape.rclCl (h : Head) : Statement (.rclCl h) := fun hw =>
  shape_rm (modRM_in (both hw).1 rfl) (hasRm_of_hasDigit (both hw).2)

theorem Shape.rcrOne (h : Head) : Statement (.rcrOne h) := fun hw =>
  shape_rm (modRM_in (both hw).1 rfl) (hasRm_of_hasDigit (both hw).2)

theorem Shape.rcrCl (h : Head) : Statement (.rcrCl h) := fun hw =>
  shape_rm (modRM_in (both hw).1 rfl) (hasRm_of_hasDigit (both hw).2)

theorem Shape.shlOne (h : Head) : Statement (.shlOne h) := fun hw =>
  shape_rm (modRM_in (both hw).1 rfl) (hasRm_of_hasDigit (both hw).2)

theorem Shape.shlCl (h : Head) : Statement (.shlCl h) := fun hw =>
  shape_rm (modRM_in (both hw).1 rfl) (hasRm_of_hasDigit (both hw).2)

theorem Shape.shrOne (h : Head) : Statement (.shrOne h) := fun hw =>
  shape_rm (modRM_in (both hw).1 rfl) (hasRm_of_hasDigit (both hw).2)

theorem Shape.shrCl (h : Head) : Statement (.shrCl h) := fun hw =>
  shape_rm (modRM_in (both hw).1 rfl) (hasRm_of_hasDigit (both hw).2)

theorem Shape.sarOne (h : Head) : Statement (.sarOne h) := fun hw =>
  shape_rm (modRM_in (both hw).1 rfl) (hasRm_of_hasDigit (both hw).2)

theorem Shape.sarCl (h : Head) : Statement (.sarCl h) := fun hw =>
  shape_rm (modRM_in (both hw).1 rfl) (hasRm_of_hasDigit (both hw).2)

theorem Shape.jo (h : Head) (rel : Byte) : Statement (.jo h rel) := fun hw =>
  shape_noRm (noModRM_is (both hw).1 rfl) (both hw).2

theorem Shape.jno (h : Head) (rel : Byte) : Statement (.jno h rel) := fun hw =>
  shape_noRm (noModRM_is (both hw).1 rfl) (both hw).2

theorem Shape.jb (h : Head) (rel : Byte) : Statement (.jb h rel) := fun hw =>
  shape_noRm (noModRM_is (both hw).1 rfl) (both hw).2

theorem Shape.jnb (h : Head) (rel : Byte) : Statement (.jnb h rel) := fun hw =>
  shape_noRm (noModRM_is (both hw).1 rfl) (both hw).2

theorem Shape.jz (h : Head) (rel : Byte) : Statement (.jz h rel) := fun hw =>
  shape_noRm (noModRM_is (both hw).1 rfl) (both hw).2

theorem Shape.jnz (h : Head) (rel : Byte) : Statement (.jnz h rel) := fun hw =>
  shape_noRm (noModRM_is (both hw).1 rfl) (both hw).2

theorem Shape.jbe (h : Head) (rel : Byte) : Statement (.jbe h rel) := fun hw =>
  shape_noRm (noModRM_is (both hw).1 rfl) (both hw).2

theorem Shape.jnbe (h : Head) (rel : Byte) : Statement (.jnbe h rel) := fun hw =>
  shape_noRm (noModRM_is (both hw).1 rfl) (both hw).2

theorem Shape.js (h : Head) (rel : Byte) : Statement (.js h rel) := fun hw =>
  shape_noRm (noModRM_is (both hw).1 rfl) (both hw).2

theorem Shape.jns (h : Head) (rel : Byte) : Statement (.jns h rel) := fun hw =>
  shape_noRm (noModRM_is (both hw).1 rfl) (both hw).2

theorem Shape.jp (h : Head) (rel : Byte) : Statement (.jp h rel) := fun hw =>
  shape_noRm (noModRM_is (both hw).1 rfl) (both hw).2

theorem Shape.jnp (h : Head) (rel : Byte) : Statement (.jnp h rel) := fun hw =>
  shape_noRm (noModRM_is (both hw).1 rfl) (both hw).2

theorem Shape.jl (h : Head) (rel : Byte) : Statement (.jl h rel) := fun hw =>
  shape_noRm (noModRM_is (both hw).1 rfl) (both hw).2

theorem Shape.jnl (h : Head) (rel : Byte) : Statement (.jnl h rel) := fun hw =>
  shape_noRm (noModRM_is (both hw).1 rfl) (both hw).2

theorem Shape.jle (h : Head) (rel : Byte) : Statement (.jle h rel) := fun hw =>
  shape_noRm (noModRM_is (both hw).1 rfl) (both hw).2

theorem Shape.jnle (h : Head) (rel : Byte) : Statement (.jnle h rel) := fun hw =>
  shape_noRm (noModRM_is (both hw).1 rfl) (both hw).2

theorem Shape.jmpRel8 (h : Head) (rel : Byte) : Statement (.jmpRel8 h rel) := fun hw =>
  shape_noRm (noModRM_is (both hw).1 rfl) (both hw).2

theorem Shape.jmpRel16 (h : Head) (rel : Word) : Statement (.jmpRel16 h rel) := fun hw =>
  shape_noRm (noModRM_is (both hw).1 rfl) (both hw).2

theorem Shape.jmpFar (h : Head) (off seg : Word) : Statement (.jmpFar h off seg) := fun hw =>
  shape_noRm (noModRM_is (both hw).1 rfl) (both hw).2

theorem Shape.jmpRm (h : Head) : Statement (.jmpRm h) := fun hw =>
  shape_rm (modRM_is (both hw).1 rfl) (hasRm_of_hasDigit (both hw).2)

theorem Shape.jmpFarRm (h : Head) : Statement (.jmpFarRm h) := fun hw =>
  shape_rm (modRM_is (both hw).1 rfl) (hasRm_of_hasDigit (both hw).2)

theorem Shape.callRel (h : Head) (rel : Word) : Statement (.callRel h rel) := fun hw =>
  shape_noRm (noModRM_is (both hw).1 rfl) (both hw).2

theorem Shape.callFar (h : Head) (off seg : Word) : Statement (.callFar h off seg) := fun hw =>
  shape_noRm (noModRM_is (both hw).1 rfl) (both hw).2

theorem Shape.callRm (h : Head) : Statement (.callRm h) := fun hw =>
  shape_rm (modRM_is (both hw).1 rfl) (hasRm_of_hasDigit (both hw).2)

theorem Shape.callFarRm (h : Head) : Statement (.callFarRm h) := fun hw =>
  shape_rm (modRM_is (both hw).1 rfl) (hasRm_of_hasDigit (both hw).2)

theorem Shape.ret (h : Head) : Statement (.ret h) := fun hw =>
  shape_noRm (noModRM_is (both hw).1 rfl) (both hw).2

theorem Shape.retImm (h : Head) (imm : Word) : Statement (.retImm h imm) := fun hw =>
  shape_noRm (noModRM_is (both hw).1 rfl) (both hw).2

theorem Shape.retf (h : Head) : Statement (.retf h) := fun hw =>
  shape_noRm (noModRM_is (both hw).1 rfl) (both hw).2

theorem Shape.retfImm (h : Head) (imm : Word) : Statement (.retfImm h imm) := fun hw =>
  shape_noRm (noModRM_is (both hw).1 rfl) (both hw).2

theorem Shape.iret (h : Head) : Statement (.iret h) := fun hw =>
  shape_noRm (noModRM_is (both hw).1 rfl) (both hw).2

theorem Shape.loopnz (h : Head) (rel : Byte) : Statement (.loopnz h rel) := fun hw =>
  shape_noRm (noModRM_is (both hw).1 rfl) (both hw).2

theorem Shape.loopz (h : Head) (rel : Byte) : Statement (.loopz h rel) := fun hw =>
  shape_noRm (noModRM_is (both hw).1 rfl) (both hw).2

theorem Shape.loop (h : Head) (rel : Byte) : Statement (.loop h rel) := fun hw =>
  shape_noRm (noModRM_is (both hw).1 rfl) (both hw).2

theorem Shape.jcxz (h : Head) (rel : Byte) : Statement (.jcxz h rel) := fun hw =>
  shape_noRm (noModRM_is (both hw).1 rfl) (both hw).2

theorem Shape.movs (h : Head) : Statement (.movs h) := fun hw =>
  shape_noRm (noModRM_in (both hw).1 rfl) (both hw).2

theorem Shape.stos (h : Head) : Statement (.stos h) := fun hw =>
  shape_noRm (noModRM_in (both hw).1 rfl) (both hw).2

theorem Shape.lods (h : Head) : Statement (.lods h) := fun hw =>
  shape_noRm (noModRM_in (both hw).1 rfl) (both hw).2

theorem Shape.cmps (h : Head) : Statement (.cmps h) := fun hw =>
  shape_noRm (noModRM_in (both hw).1 rfl) (both hw).2

theorem Shape.scas (h : Head) : Statement (.scas h) := fun hw =>
  shape_noRm (noModRM_in (both hw).1 rfl) (both hw).2

theorem Shape.pushReg (h : Head) : Statement (.pushReg h) := fun hw =>
  shape_noRm (noModRM_in (both hw).1 rfl) (both hw).2

theorem Shape.pushSreg (h : Head) (r : SReg) : Statement (.pushSreg h r) := fun hw =>
  shape_noRm (noModRM_sreg r (both hw).1 (by intro r; cases r <;> rfl)) (both hw).2

theorem Shape.pushRm (h : Head) : Statement (.pushRm h) := fun hw =>
  shape_rm (modRM_is (both hw).1 rfl) (hasRm_of_hasDigit (both hw).2)

theorem Shape.popReg (h : Head) : Statement (.popReg h) := fun hw =>
  shape_noRm (noModRM_in (both hw).1 rfl) (both hw).2

theorem Shape.popSreg (h : Head) (r : SReg) : Statement (.popSreg h r) := fun hw =>
  shape_noRm (noModRM_sreg r (both (both hw).1).1 (by intro r; cases r <;> rfl)) (both hw).2

theorem Shape.popRm (h : Head) : Statement (.popRm h) := fun hw =>
  shape_rm (modRM_is (both hw).1 rfl) (hasRm_of_hasDigit (both hw).2)

theorem Shape.pushf (h : Head) : Statement (.pushf h) := fun hw =>
  shape_noRm (noModRM_is (both hw).1 rfl) (both hw).2

theorem Shape.popf (h : Head) : Statement (.popf h) := fun hw =>
  shape_noRm (noModRM_is (both hw).1 rfl) (both hw).2

theorem Shape.clc (h : Head) : Statement (.clc h) := fun hw =>
  shape_noRm (noModRM_is (both hw).1 rfl) (both hw).2

theorem Shape.stc (h : Head) : Statement (.stc h) := fun hw =>
  shape_noRm (noModRM_is (both hw).1 rfl) (both hw).2

theorem Shape.cli (h : Head) : Statement (.cli h) := fun hw =>
  shape_noRm (noModRM_is (both hw).1 rfl) (both hw).2

theorem Shape.sti (h : Head) : Statement (.sti h) := fun hw =>
  shape_noRm (noModRM_is (both hw).1 rfl) (both hw).2

theorem Shape.cld (h : Head) : Statement (.cld h) := fun hw =>
  shape_noRm (noModRM_is (both hw).1 rfl) (both hw).2

theorem Shape.std (h : Head) : Statement (.std h) := fun hw =>
  shape_noRm (noModRM_is (both hw).1 rfl) (both hw).2

theorem Shape.cmc (h : Head) : Statement (.cmc h) := fun hw =>
  shape_noRm (noModRM_is (both hw).1 rfl) (both hw).2

theorem Shape.lahf (h : Head) : Statement (.lahf h) := fun hw =>
  shape_noRm (noModRM_is (both hw).1 rfl) (both hw).2

theorem Shape.sahf (h : Head) : Statement (.sahf h) := fun hw =>
  shape_noRm (noModRM_is (both hw).1 rfl) (both hw).2

theorem Shape.inImm (h : Head) (port : Byte) : Statement (.inImm h port) := fun hw =>
  shape_noRm (noModRM_in (both hw).1 rfl) (both hw).2

theorem Shape.inDx (h : Head) : Statement (.inDx h) := fun hw =>
  shape_noRm (noModRM_in (both hw).1 rfl) (both hw).2

theorem Shape.outImm (h : Head) (port : Byte) : Statement (.outImm h port) := fun hw =>
  shape_noRm (noModRM_in (both hw).1 rfl) (both hw).2

theorem Shape.outDx (h : Head) : Statement (.outDx h) := fun hw =>
  shape_noRm (noModRM_in (both hw).1 rfl) (both hw).2

theorem Shape.seg (h : Head) (r : SReg) : Statement (.seg h r) := fun hw =>
  shape_noRm (noModRM_sreg r (both hw).1 (by intro r; cases r <;> rfl)) (both hw).2

theorem Shape.repnz (h : Head) : Statement (.repnz h) := fun hw =>
  shape_noRm (noModRM_is (both hw).1 rfl) (both hw).2

theorem Shape.repz (h : Head) : Statement (.repz h) := fun hw =>
  shape_noRm (noModRM_is (both hw).1 rfl) (both hw).2

theorem Shape.int3 (h : Head) : Statement (.int3 h) := fun hw =>
  shape_noRm (noModRM_is (both hw).1 rfl) (both hw).2

theorem Shape.int (h : Head) (vector : Byte) : Statement (.int h vector) := fun hw =>
  shape_noRm (noModRM_is (both hw).1 rfl) (both hw).2

theorem Shape.into (h : Head) : Statement (.into h) := fun hw =>
  shape_noRm (noModRM_is (both hw).1 rfl) (both hw).2

theorem Shape.hlt (h : Head) : Statement (.hlt h) := fun hw =>
  shape_noRm (noModRM_is (both hw).1 rfl) (both hw).2

theorem Shape.reservedOpcode (h : Head) : Statement (.reservedOpcode h) := fun hw =>
  shape_noRm (noModRM_reserved (both hw).1) (both hw).2

theorem Shape.reservedWait (h : Head) : Statement (.reservedWait h) := fun hw =>
  shape_noRm (noModRM_is (both hw).1 rfl) (both hw).2

theorem Shape.reservedLock (h : Head) : Statement (.reservedLock h) := fun hw =>
  shape_noRm (noModRM_is (both hw).1 rfl) (both hw).2

theorem Shape.reservedEsc (h : Head) : Statement (.reservedEsc h) := fun hw =>
  shape_noRm (noModRM_in (both hw).1 rfl) (both hw).2

theorem Shape.reservedMember (h : Head) : Statement (.reservedMember h) := fun hw =>
  shape_member hw

/-! ### The length formula -/

/-- The length entries of an opcode byte, and that the group exceptions of 30_encoding.md R114 do not concern it. -/
structure Sizes (k b w m : Nat) : Prop where
  base : baseSize k = b
  width : widthSize k = w
  mod : modSize k = m
  plain : Nat.blt k 0xF6 = true ∨ Nat.blt 0xF7 k = true ∧ Nat.blt k 0xFE = true

/-- The check of `Sizes` on one opcode byte. -/
def sizesCheck (b w m k : Nat) : Bool :=
  Nat.beq (baseSize k) b && Nat.beq (widthSize k) w && Nat.beq (modSize k) m &&
    (Nat.blt k 0xF6 || (Nat.blt 0xF7 k && Nat.blt k 0xFE))

theorem sizes_of_check {b w m k : Nat} (t : sizesCheck b w m k = true) : Sizes k b w m := by
  simp only [sizesCheck, Bool.and_eq_true, Nat.beq_eq, Bool.or_eq_true] at t
  exact ⟨t.1.1.1, t.1.1.2, t.1.2, t.2⟩

theorem sizes_in {h : Head} {lo hi b w m : Nat} (ho : h.opIn lo hi = true)
    (t : ((List.range (hi + 1 - lo)).all fun k => sizesCheck b w m (lo + k)) = true) : Sizes h.op.toNat b w m := by
  simp only [Head.opIn, Bool.and_eq_true, decide_eq_true_eq] at ho
  have := List.all_eq_true.mp t (h.op.toNat - lo) (by simp; omega)
  rw [show lo + (h.op.toNat - lo) = h.op.toNat by omega] at this
  exact sizes_of_check this

theorem sizes_is {h : Head} {op : Byte} {b w m : Nat} (ho : h.opIs op = true) (t : sizesCheck b w m op.toNat = true) :
    Sizes h.op.toNat b w m := by
  simp only [Head.opIs, beq_iff_eq] at ho
  exact ho ▸ sizes_of_check t

/-- The length formula (30_encoding.md R112) by the entries of the opcode byte it takes them from. -/
theorem instLen_tRef (h : Head) : instLen tRef h =
    baseSize (Head.lengthOpcode h).toNat + widthSize (Head.lengthOpcode h).toNat * h.width.bytes +
      modSize (Head.lengthOpcode h).toNat * (if modSize (Head.lengthOpcode h).toNat = 0 then 0 else h.dispBytes) + (Head.extra h) := by
  unfold instLen
  simp only [lookup_iModSize, lookup_iWSize, lookup_baseInstSize]

theorem instLen_sizes {h : Head} {b w m : Nat} (s : Sizes h.op.toNat b w m) :
    instLen tRef h = b + w * h.width.bytes + m * (if m = 0 then 0 else h.dispBytes) := by
  have hp := s.plain
  simp only [Nat.blt_eq] at hp
  have ne : ∀ k : Byte, k.toNat = 0xF6 ∨ k.toNat = 0xF7 ∨ k.toNat = 0xFE ∨ k.toNat = 0xFF → h.op ≠ k := by
    intro k hk hc
    rw [hc] at hp
    omega
  have e1 : (Head.lengthOpcode h) = h.op := by
    unfold Head.lengthOpcode
    exact if_neg fun hc => hc.1.elim (ne _ (by decide)) (ne _ (by decide))
  have e2 : (Head.extra h) = 0 := by
    unfold Head.extra
    exact if_neg fun hc => hc.1.elim (ne _ (by decide)) (ne _ (by decide))
  rw [instLen_tRef, e1, e2, s.base, s.width, s.mod, Nat.add_zero]

theorem immAt_rm {h : Head} (hm : h.hasRm = true) : h.immAt = 2 + h.dispBytes := by
  obtain ⟨op, m⟩ := h
  cases m with
  | none => cases hm
  | some m => rfl

theorem immAt_noRm {h : Head} (hm : h.noRm = true) : h.immAt = 1 := by
  obtain ⟨op, m⟩ := h
  cases m with
  | none => rfl
  | some m => cases hm

/-- The length, as the head and `n` operand bytes. -/
def HeadLength (h : Head) (n : Nat) : Prop := instLen tRef h = h.immAt + n

theorem length_rm {h : Head} (s : Sizes h.op.toNat 2 0 1) (hm : h.hasRm = true) : HeadLength h 0 := by
  simp [HeadLength, instLen_sizes s, immAt_rm hm]

theorem length_rmW {h : Head} (s : Sizes h.op.toNat 2 1 1) (hm : h.hasRm = true) : HeadLength h h.width.bytes := by
  simp [HeadLength, instLen_sizes s, immAt_rm hm]
  omega

theorem length_noRm {h : Head} {n : Nat} (s : Sizes h.op.toNat (1 + n) 0 0) (hm : h.noRm = true) : HeadLength h n := by
  simp [HeadLength, instLen_sizes s, immAt_noRm hm]

theorem length_noRmW {h : Head} (s : Sizes h.op.toNat 1 1 0) (hm : h.noRm = true) : HeadLength h h.width.bytes := by
  simp [HeadLength, instLen_sizes s, immAt_noRm hm]

theorem sizes_sreg {h : Head} {base : Byte} {b w m : Nat} (r : SReg) (ho : h.opIs (sregOp r base) = true)
    (t : ∀ r, sizesCheck b w m (sregOp r base).toNat = true) : Sizes h.op.toNat b w m := sizes_is ho (t r)

theorem sizes_reserved {h : Head} (ho : h.isReservedByte = true) : Sizes h.op.toNat 1 0 0 := by
  simp only [Head.isReservedByte, Bool.or_eq_true] at ho
  rcases ho with ((((ho | ho) | ho) | ho) | ho) | ho
  · exact sizes_is ho rfl
  · exact sizes_in ho rfl
  · exact sizes_in ho rfl
  · exact sizes_in ho rfl
  · exact sizes_is ho rfl
  · exact sizes_is ho rfl

theorem eqOp {a b : Byte} (h : a.toNat = b.toNat) : a = b := BitVec.eq_of_toNat_eq h

/-- 80 to 83: the immediate has the width of 30_encoding.md R110. -/
theorem length_rmAlu {h : Head} (ho : h.opIn 0x80 0x83 = true) (hm : h.hasRm = true) :
    HeadLength h h.aluImmWidth.bytes := by
  have hr : h.op = 0x80 ∨ h.op = 0x81 ∨ h.op = 0x82 ∨ h.op = 0x83 := by
    simp only [Head.opIn, Bool.and_eq_true, decide_eq_true_eq] at ho
    have : h.op.toNat = 0x80 ∨ h.op.toNat = 0x81 ∨ h.op.toNat = 0x82 ∨ h.op.toNat = 0x83 := by omega
    exact this.imp eqOp (.imp eqOp (.imp eqOp eqOp))
  have w : h.op = 0x80 ∨ h.op = 0x81 ∨ h.op = 0x82 → h.aluImmWidth = h.width := by
    rintro (e | e | e) <;> simp [Head.aluImmWidth, Head.dir, Head.width, opWidth, Width.ofBit, e]
  rcases hr with hr | hr | hr | hr
  · rw [w (.inl hr)]; exact length_rmW (sizes_of_check (hr ▸ rfl)) hm
  · rw [w (.inr (.inl hr))]; exact length_rmW (sizes_of_check (hr ▸ rfl)) hm
  · rw [w (.inr (.inr hr))]; exact length_rmW (sizes_of_check (hr ▸ rfl)) hm
  · have s : Sizes h.op.toNat 3 0 1 := sizes_of_check (hr ▸ rfl)
    have hw : h.aluImmWidth = .byte := by simp [Head.aluImmWidth, Head.dir, hr]
    simp [HeadLength, instLen_sizes s, immAt_rm hm, hw, Width.bytes]
    omega

theorem digit_of {h : Head} {k : BitVec 3} (hd : h.hasDigit k = true) : h.digit = some k.toNat := by
  obtain ⟨op, m⟩ := h
  cases m with
  | none => cases hd
  | some m => simpa [Head.digit, Head.hasDigit] using congrArg BitVec.toNat (beq_iff_eq.mp (both hd).2)

/-- F6 and F7: the formula gives the immediate of TEST by `extra`, no other member has one (30_encoding.md R114). -/
theorem length_f6 {h : Head} (ho : h.opIn 0xF6 0xF7 = true) {k : BitVec 3} (hd : h.hasDigit k = true) :
    HeadLength h (if k = 0 then h.width.bytes else 0) := by
  have hr : h.op = 0xF6 ∨ h.op = 0xF7 := by
    simp only [Head.opIn, Bool.and_eq_true, decide_eq_true_eq] at ho
    have : h.op.toNat = 0xF6 ∨ h.op.toNat = 0xF7 := by omega
    exact this.imp eqOp eqOp
  have hl : (Head.lengthOpcode h) = h.op := by rcases hr with hr | hr <;> simp [Head.lengthOpcode, hr]
  have hs : baseSize h.op.toNat = 2 ∧ widthSize h.op.toNat = 0 ∧ modSize h.op.toNat = 1 := by
    rcases hr with hr | hr <;> rw [hr] <;> exact ⟨rfl, rfl, rfl⟩
  have he : (Head.extra h) = if k = 0 then h.width.bytes else 0 := by
    have : (k.toNat = 0) ↔ k = 0 := by rw [← BitVec.toNat_inj]; rfl
    simp only [Head.extra, digit_of hd, hr, true_and, Option.some.injEq, this]
  rw [HeadLength, instLen_tRef, hl, hs.1, hs.2.1, hs.2.2, he, immAt_rm (hasRm_of_hasDigit hd)]
  simp

/-- FE and FF: the entries of INC and DEC, taken from 0x10, are those of the other members (30_encoding.md R114). -/
theorem length_fe {h : Head} (ho : h.opIn 0xFE 0xFF = true) (hm : h.hasRm = true) : HeadLength h 0 := by
  have hr : h.op = 0xFE ∨ h.op = 0xFF := by
    simp only [Head.opIn, Bool.and_eq_true, decide_eq_true_eq] at ho
    have : h.op.toNat = 0xFE ∨ h.op.toNat = 0xFF := by omega
    exact this.imp eqOp eqOp
  have hl : (Head.lengthOpcode h) = 0x10 ∨ (Head.lengthOpcode h) = h.op := by
    unfold Head.lengthOpcode
    split
    · exact .inl rfl
    · exact .inr rfl
  have hs : baseSize (Head.lengthOpcode h).toNat = 2 ∧ widthSize (Head.lengthOpcode h).toNat = 0 ∧
      modSize (Head.lengthOpcode h).toNat = 1 := by
    rcases hl with hl | hl
    · rw [hl]; exact ⟨rfl, rfl, rfl⟩
    · rcases hr with hr | hr <;> rw [hl, hr] <;> exact ⟨rfl, rfl, rfl⟩
  have he : (Head.extra h) = 0 := by rcases hr with hr | hr <;> simp [Head.extra, hr]
  rw [HeadLength, instLen_tRef, hs.1, hs.2.1, hs.2.2, he, immAt_rm hm]
  simp

theorem opIn_of_is {h : Head} {op : Byte} (ho : h.opIs op = true) : h.opIn op.toNat op.toNat = true := by
  simp only [Head.opIs, beq_iff_eq] at ho
  simp [Head.opIn, ho]

theorem opIn_mono {h : Head} {a b lo hi : Nat} (ho : h.opIn a b = true) (h1 : lo ≤ a) (h2 : b ≤ hi) :
    h.opIn lo hi = true := by
  simp only [Head.opIn, Bool.and_eq_true, decide_eq_true_eq] at ho ⊢
  omega

theorem immBytes_length (w : Width) (imm : Word) : (immBytes w imm).length = w.bytes := by cases w <;> rfl

/-- The encoded length is the head and the operand bytes. -/
theorem encode_length (i : Instr) : (encode i).length = i.head.immAt + i.tail.length := by
  rw [encode, List.length_append, encodeHead_length]

/-- The statement of the family `Length`: the length formula gives the encoded length of a well-formed instruction
(30_encoding.md R112); a group member without handler, whose pass faults before it uses the formula, is left out. -/
def Length.Statement (i : Instr) : Prop :=
  (∀ h, i ≠ .reservedMember h) → i.wellFormed = true → instLen tRef i.head = (encode i).length

theorem length_of {i : Instr} {n : Nat} (h : HeadLength i.head n) (ht : i.tail.length = n) :
    instLen tRef i.head = (encode i).length := by rw [encode_length, ht]; exact h

theorem Length.addRmReg (h : Head) : Statement (.addRmReg h) := fun _ hw =>
  length_of (length_rm (sizes_in (both hw).1 rfl) (both hw).2) rfl

theorem Length.addAccImm (h : Head) (imm : Word) : Statement (.addAccImm h imm) := fun _ hw =>
  length_of (length_noRmW (sizes_in (both (both hw).1).1 rfl) (both (both hw).1).2) (immBytes_length _ _)

theorem Length.addRmImm (h : Head) (imm : Word) : Statement (.addRmImm h imm) := fun _ hw =>
  length_of (length_rmAlu (both (both hw).1).1 (hasRm_of_hasDigit (both (both hw).1).2)) (immBytes_length _ _)

theorem Length.orRmReg (h : Head) : Statement (.orRmReg h) := fun _ hw =>
  length_of (length_rm (sizes_in (both hw).1 rfl) (both hw).2) rfl

theorem Length.orAccImm (h : Head) (imm : Word) : Statement (.orAccImm h imm) := fun _ hw =>
  length_of (length_noRmW (sizes_in (both (both hw).1).1 rfl) (both (both hw).1).2) (immBytes_length _ _)

theorem Length.orRmImm (h : Head) (imm : Word) : Statement (.orRmImm h imm) := fun _ hw =>
  length_of (length_rmAlu (both (both hw).1).1 (hasRm_of_hasDigit (both (both hw).1).2)) (immBytes_length _ _)

theorem Length.adcRmReg (h : Head) : Statement (.adcRmReg h) := fun _ hw =>
  length_of (length_rm (sizes_in (both hw).1 rfl) (both hw).2) rfl

theorem Length.adcAccImm (h : Head) (imm : Word) : Statement (.adcAccImm h imm) := fun _ hw =>
  length_of (length_noRmW (sizes_in (both (both hw).1).1 rfl) (both (both hw).1).2) (immBytes_length _ _)

theorem Length.adcRmImm (h : Head) (imm : Word) : Statement (.adcRmImm h imm) := fun _ hw =>
  length_of (length_rmAlu (both (both hw).1).1 (hasRm_of_hasDigit (both (both hw).1).2)) (immBytes_length _ _)

theorem Length.sbbRmReg (h : Head) : Statement (.sbbRmReg h) := fun _ hw =>
  length_of (length_rm (sizes_in (both hw).1 rfl) (both hw).2) rfl

theorem Length.sbbAccImm (h : Head) (imm : Word) : Statement (.sbbAccImm h imm) := fun _ hw =>
  length_of (length_noRmW (sizes_in (both (both hw).1).1 rfl) (both (both hw).1).2) (immBytes_length _ _)

theorem Length.sbbRmImm (h : Head) (imm : Word) : Statement (.sbbRmImm h imm) := fun _ hw =>
  length_of (length_rmAlu (both (both hw).1).1 (hasRm_of_hasDigit (both (both hw).1).2)) (immBytes_length _ _)

theorem Length.andRmReg (h : Head) : Statement (.andRmReg h) := fun _ hw =>
  length_of (length_rm (sizes_in (both hw).1 rfl) (both hw).2) rfl

theorem Length.andAccImm (h : Head) (imm : Word) : Statement (.andAccImm h imm) := fun _ hw =>
  length_of (length_noRmW (sizes_in (both (both hw).1).1 rfl) (both (both hw).1).2) (immBytes_length _ _)

theorem Length.andRmImm (h : Head) (imm : Word) : Statement (.andRmImm h imm) := fun _ hw =>
  length_of (length_rmAlu (both (both hw).1).1 (hasRm_of_hasDigit (both (both hw).1).2)) (immBytes_length _ _)

theorem Length.subRmReg (h : Head) : Statement (.subRmReg h) := fun _ hw =>
  length_of (length_rm (sizes_in (both hw).1 rfl) (both hw).2) rfl

theorem Length.subAccImm (h : Head) (imm : Word) : Statement (.subAccImm h imm) := fun _ hw =>
  length_of (length_noRmW (sizes_in (both (both hw).1).1 rfl) (both (both hw).1).2) (immBytes_length _ _)

theorem Length.subRmImm (h : Head) (imm : Word) : Statement (.subRmImm h imm) := fun _ hw =>
  length_of (length_rmAlu (both (both hw).1).1 (hasRm_of_hasDigit (both (both hw).1).2)) (immBytes_length _ _)

theorem Length.xorRmReg (h : Head) : Statement (.xorRmReg h) := fun _ hw =>
  length_of (length_rm (sizes_in (both hw).1 rfl) (both hw).2) rfl

theorem Length.xorAccImm (h : Head) (imm : Word) : Statement (.xorAccImm h imm) := fun _ hw =>
  length_of (length_noRmW (sizes_in (both (both hw).1).1 rfl) (both (both hw).1).2) (immBytes_length _ _)

theorem Length.xorRmImm (h : Head) (imm : Word) : Statement (.xorRmImm h imm) := fun _ hw =>
  length_of (length_rmAlu (both (both hw).1).1 (hasRm_of_hasDigit (both (both hw).1).2)) (immBytes_length _ _)

theorem Length.cmpRmReg (h : Head) : Statement (.cmpRmReg h) := fun _ hw =>
  length_of (length_rm (sizes_in (both hw).1 rfl) (both hw).2) rfl

theorem Length.cmpAccImm (h : Head) (imm : Word) : Statement (.cmpAccImm h imm) := fun _ hw =>
  length_of (length_noRmW (sizes_in (both (both hw).1).1 rfl) (both (both hw).1).2) (immBytes_length _ _)

theorem Length.cmpRmImm (h : Head) (imm : Word) : Statement (.cmpRmImm h imm) := fun _ hw =>
  length_of (length_rmAlu (both (both hw).1).1 (hasRm_of_hasDigit (both (both hw).1).2)) (immBytes_length _ _)

theorem Length.movRmReg (h : Head) : Statement (.movRmReg h) := fun _ hw =>
  length_of (length_rm (sizes_in (both hw).1 rfl) (both hw).2) rfl

theorem Length.movRegImm (h : Head) (imm : Word) : Statement (.movRegImm h imm) := fun _ hw =>
  length_of (length_noRmW (sizes_in (both (both hw).1).1 rfl) (both (both hw).1).2) (immBytes_length _ _)

theorem Length.movRmImm (h : Head) (imm : Word) : Statement (.movRmImm h imm) := fun _ hw =>
  length_of (length_rmW (sizes_in (both (both hw).1).1 rfl) (hasRm_of_hasDigit (both (both hw).1).2)) (immBytes_length _ _)

theorem Length.movMoffs (h : Head) (addr : Word) : Statement (.movMoffs h addr) := fun _ hw =>
  length_of (length_noRm (sizes_in (both hw).1 rfl) (both hw).2) rfl

theorem Length.movRmSreg (h : Head) : Statement (.movRmSreg h) := fun _ hw =>
  length_of (length_rm (sizes_is (both hw).1 rfl) (hasRm_of_hasSreg (both hw).2)) rfl

theorem Length.movSregRm (h : Head) : Statement (.movSregRm h) := fun _ hw =>
  length_of (length_rm (sizes_is (both hw).1 rfl) (hasRm_of_hasSreg (both hw).2)) rfl

theorem Length.xchgRmReg (h : Head) : Statement (.xchgRmReg h) := fun _ hw =>
  length_of (length_rm (sizes_in (both hw).1 rfl) (both hw).2) rfl

theorem Length.xchgAx (h : Head) : Statement (.xchgAx h) := fun _ hw =>
  length_of (length_noRm (sizes_in (both hw).1 rfl) (both hw).2) rfl

theorem Length.nop (h : Head) : Statement (.nop h) := fun _ hw =>
  length_of (length_noRm (sizes_is (both hw).1 rfl) (both hw).2) rfl

theorem Length.lea (h : Head) : Statement (.lea h) := fun _ hw =>
  length_of (length_rm (sizes_is (both hw).1 rfl) (both hw).2) rfl

theorem Length.les (h : Head) : Statement (.les h) := fun _ hw =>
  length_of (length_rm (sizes_is (both hw).1 rfl) (both hw).2) rfl

theorem Length.lds (h : Head) : Statement (.lds h) := fun _ hw =>
  length_of (length_rm (sizes_is (both hw).1 rfl) (both hw).2) rfl

theorem Length.xlat (h : Head) : Statement (.xlat h) := fun _ hw =>
  length_of (length_noRm (sizes_is (both hw).1 rfl) (both hw).2) rfl

theorem Length.cbw (h : Head) : Statement (.cbw h) := fun _ hw =>
  length_of (length_noRm (sizes_is (both hw).1 rfl) (both hw).2) rfl

theorem Length.cwd (h : Head) : Statement (.cwd h) := fun _ hw =>
  length_of (length_noRm (sizes_is (both hw).1 rfl) (both hw).2) rfl

theorem Length.incReg (h : Head) : Statement (.incReg h) := fun _ hw =>
  length_of (length_noRm (sizes_in (both hw).1 rfl) (both hw).2) rfl

theorem Length.incRm (h : Head) : Statement (.incRm h) := fun _ hw =>
  length_of (length_fe (both hw).1 (hasRm_of_hasDigit (both hw).2)) rfl

theorem Length.decReg (h : Head) : Statement (.decReg h) := fun _ hw =>
  length_of (length_noRm (sizes_in (both hw).1 rfl) (both hw).2) rfl

theorem Length.decRm (h : Head) : Statement (.decRm h) := fun _ hw =>
  length_of (length_fe (both hw).1 (hasRm_of_hasDigit (both hw).2)) rfl

theorem Length.neg (h : Head) : Statement (.neg h) := fun _ hw =>
  length_of (length_f6 (both hw).1 (both hw).2) rfl

theorem Length.mul (h : Head) : Statement (.mul h) := fun _ hw =>
  length_of (length_f6 (both hw).1 (both hw).2) rfl

theorem Length.imul (h : Head) : Statement (.imul h) := fun _ hw =>
  length_of (length_f6 (both hw).1 (both hw).2) rfl

theorem Length.div (h : Head) : Statement (.div h) := fun _ hw =>
  length_of (length_f6 (both hw).1 (both hw).2) rfl

theorem Length.idiv (h : Head) : Statement (.idiv h) := fun _ hw =>
  length_of (length_f6 (both hw).1 (both hw).2) rfl

theorem Length.daa (h : Head) : Statement (.daa h) := fun _ hw =>
  length_of (length_noRm (sizes_is (both hw).1 rfl) (both hw).2) rfl

theorem Length.das (h : Head) : Statement (.das h) := fun _ hw =>
  length_of (length_noRm (sizes_is (both hw).1 rfl) (both hw).2) rfl

theorem Length.aaa (h : Head) : Statement (.aaa h) := fun _ hw =>
  length_of (length_noRm (sizes_is (both hw).1 rfl) (both hw).2) rfl

theorem Length.aas (h : Head) : Statement (.aas h) := fun _ hw =>
  length_of (length_noRm (sizes_is (both hw).1 rfl) (both hw).2) rfl

theorem Length.aam (h : Head) (imm : Byte) : Statement (.aam h imm) := fun _ hw =>
  length_of (length_noRm (sizes_is (both hw).1 rfl) (both hw).2) rfl

theorem Length.aad (h : Head) (imm : Byte) : Statement (.aad h imm) := fun _ hw =>
  length_of (length_noRm (sizes_is (both hw).1 rfl) (both hw).2) rfl

theorem Length.not (h : Head) : Statement (.not h) := fun _ hw =>
  length_of (length_f6 (both hw).1 (both hw).2) rfl

theorem Length.testRmReg (h : Head) : Statement (.testRmReg h) := fun _ hw =>
  length_of (length_rm (sizes_in (both hw).1 rfl) (both hw).2) rfl

theorem Length.testAccImm (h : Head) (imm : Word) : Statement (.testAccImm h imm) := fun _ hw =>
  length_of (length_noRmW (sizes_in (both (both hw).1).1 rfl) (both (both hw).1).2) (immBytes_length _ _)

theorem Length.testRmImm (h : Head) (imm : Word) : Statement (.testRmImm h imm) := fun _ hw =>
  length_of (length_f6 (both (both hw).1).1 (both (both hw).1).2) (immBytes_length _ _)

theorem Length.rolOne (h : Head) : Statement (.rolOne h) := fun _ hw =>
  length_of (length_rm (sizes_in (both hw).1 rfl) (hasRm_of_hasDigit (both hw).2)) rfl

theorem Length.rolCl (h : Head) : Statement (.rolCl h) := fun _ hw =>
  length_of (length_rm (sizes_in (both hw).1 rfl) (hasRm_of_hasDigit (both hw).2)) rfl

theorem Length.rorOne (h : Head) : Statement (.rorOne h) := fun _ hw =>
  length_of (length_rm (sizes_in (both hw).1 rfl) (hasRm_of_hasDigit (both hw).2)) rfl

theorem Length.rorCl (h : Head) : Statement (.rorCl h) := fun _ hw =>
  length_of (length_rm (sizes_in (both hw).1 rfl) (hasRm_of_hasDigit (both hw).2)) rfl

theorem Length.rclOne (h : Head) : Statement (.rclOne h) := fun _ hw =>
  length_of (length_rm (sizes_in (both hw).1 rfl) (hasRm_of_hasDigit (both hw).2)) rfl

theorem Length.rclCl (h : Head) : Statement (.rclCl h) := fun _ hw =>
  length_of (length_rm (sizes_in (both hw).1 rfl) (hasRm_of_hasDigit (both hw).2)) rfl

theorem Length.rcrOne (h : Head) : Statement (.rcrOne h) := fun _ hw =>
  length_of (length_rm (sizes_in (both hw).1 rfl) (hasRm_of_hasDigit (both hw).2)) rfl

theorem Length.rcrCl (h : Head) : Statement (.rcrCl h) := fun _ hw =>
  length_of (length_rm (sizes_in (both hw).1 rfl) (hasRm_of_hasDigit (both hw).2)) rfl

theorem Length.shlOne (h : Head) : Statement (.shlOne h) := fun _ hw =>
  length_of (length_rm (sizes_in (both hw).1 rfl) (hasRm_of_hasDigit (both hw).2)) rfl

theorem Length.shlCl (h : Head) : Statement (.shlCl h) := fun _ hw =>
  length_of (length_rm (sizes_in (both hw).1 rfl) (hasRm_of_hasDigit (both hw).2)) rfl

theorem Length.shrOne (h : Head) : Statement (.shrOne h) := fun _ hw =>
  length_of (length_rm (sizes_in (both hw).1 rfl) (hasRm_of_hasDigit (both hw).2)) rfl

theorem Length.shrCl (h : Head) : Statement (.shrCl h) := fun _ hw =>
  length_of (length_rm (sizes_in (both hw).1 rfl) (hasRm_of_hasDigit (both hw).2)) rfl

theorem Length.sarOne (h : Head) : Statement (.sarOne h) := fun _ hw =>
  length_of (length_rm (sizes_in (both hw).1 rfl) (hasRm_of_hasDigit (both hw).2)) rfl

theorem Length.sarCl (h : Head) : Statement (.sarCl h) := fun _ hw =>
  length_of (length_rm (sizes_in (both hw).1 rfl) (hasRm_of_hasDigit (both hw).2)) rfl

theorem Length.jo (h : Head) (rel : Byte) : Statement (.jo h rel) := fun _ hw =>
  length_of (length_noRm (sizes_is (both hw).1 rfl) (both hw).2) rfl

theorem Length.jno (h : Head) (rel : Byte) : Statement (.jno h rel) := fun _ hw =>
  length_of (length_noRm (sizes_is (both hw).1 rfl) (both hw).2) rfl

theorem Length.jb (h : Head) (rel : Byte) : Statement (.jb h rel) := fun _ hw =>
  length_of (length_noRm (sizes_is (both hw).1 rfl) (both hw).2) rfl

theorem Length.jnb (h : Head) (rel : Byte) : Statement (.jnb h rel) := fun _ hw =>
  length_of (length_noRm (sizes_is (both hw).1 rfl) (both hw).2) rfl

theorem Length.jz (h : Head) (rel : Byte) : Statement (.jz h rel) := fun _ hw =>
  length_of (length_noRm (sizes_is (both hw).1 rfl) (both hw).2) rfl

theorem Length.jnz (h : Head) (rel : Byte) : Statement (.jnz h rel) := fun _ hw =>
  length_of (length_noRm (sizes_is (both hw).1 rfl) (both hw).2) rfl

theorem Length.jbe (h : Head) (rel : Byte) : Statement (.jbe h rel) := fun _ hw =>
  length_of (length_noRm (sizes_is (both hw).1 rfl) (both hw).2) rfl

theorem Length.jnbe (h : Head) (rel : Byte) : Statement (.jnbe h rel) := fun _ hw =>
  length_of (length_noRm (sizes_is (both hw).1 rfl) (both hw).2) rfl

theorem Length.js (h : Head) (rel : Byte) : Statement (.js h rel) := fun _ hw =>
  length_of (length_noRm (sizes_is (both hw).1 rfl) (both hw).2) rfl

theorem Length.jns (h : Head) (rel : Byte) : Statement (.jns h rel) := fun _ hw =>
  length_of (length_noRm (sizes_is (both hw).1 rfl) (both hw).2) rfl

theorem Length.jp (h : Head) (rel : Byte) : Statement (.jp h rel) := fun _ hw =>
  length_of (length_noRm (sizes_is (both hw).1 rfl) (both hw).2) rfl

theorem Length.jnp (h : Head) (rel : Byte) : Statement (.jnp h rel) := fun _ hw =>
  length_of (length_noRm (sizes_is (both hw).1 rfl) (both hw).2) rfl

theorem Length.jl (h : Head) (rel : Byte) : Statement (.jl h rel) := fun _ hw =>
  length_of (length_noRm (sizes_is (both hw).1 rfl) (both hw).2) rfl

theorem Length.jnl (h : Head) (rel : Byte) : Statement (.jnl h rel) := fun _ hw =>
  length_of (length_noRm (sizes_is (both hw).1 rfl) (both hw).2) rfl

theorem Length.jle (h : Head) (rel : Byte) : Statement (.jle h rel) := fun _ hw =>
  length_of (length_noRm (sizes_is (both hw).1 rfl) (both hw).2) rfl

theorem Length.jnle (h : Head) (rel : Byte) : Statement (.jnle h rel) := fun _ hw =>
  length_of (length_noRm (sizes_is (both hw).1 rfl) (both hw).2) rfl

theorem Length.jmpRel8 (h : Head) (rel : Byte) : Statement (.jmpRel8 h rel) := fun _ hw =>
  length_of (length_noRm (sizes_is (both hw).1 rfl) (both hw).2) rfl

theorem Length.jmpRel16 (h : Head) (rel : Word) : Statement (.jmpRel16 h rel) := fun _ hw =>
  length_of (length_noRm (sizes_is (both hw).1 rfl) (both hw).2) rfl

theorem Length.jmpFar (h : Head) (off seg : Word) : Statement (.jmpFar h off seg) := fun _ hw =>
  length_of (length_noRm (sizes_is (both hw).1 rfl) (both hw).2) rfl

theorem Length.jmpRm (h : Head) : Statement (.jmpRm h) := fun _ hw =>
  length_of (length_fe (opIn_mono (opIn_of_is (both hw).1) (by decide) (by decide)) (hasRm_of_hasDigit (both hw).2)) rfl

theorem Length.jmpFarRm (h : Head) : Statement (.jmpFarRm h) := fun _ hw =>
  length_of (length_fe (opIn_mono (opIn_of_is (both hw).1) (by decide) (by decide)) (hasRm_of_hasDigit (both hw).2)) rfl

theorem Length.callRel (h : Head) (rel : Word) : Statement (.callRel h rel) := fun _ hw =>
  length_of (length_noRm (sizes_is (both hw).1 rfl) (both hw).2) rfl

theorem Length.callFar (h : Head) (off seg : Word) : Statement (.callFar h off seg) := fun _ hw =>
  length_of (length_noRm (sizes_is (both hw).1 rfl) (both hw).2) rfl

theorem Length.callRm (h : Head) : Statement (.callRm h) := fun _ hw =>
  length_of (length_fe (opIn_mono (opIn_of_is (both hw).1) (by decide) (by decide)) (hasRm_of_hasDigit (both hw).2)) rfl

theorem Length.callFarRm (h : Head) : Statement (.callFarRm h) := fun _ hw =>
  length_of (length_fe (opIn_mono (opIn_of_is (both hw).1) (by decide) (by decide)) (hasRm_of_hasDigit (both hw).2)) rfl

theorem Length.ret (h : Head) : Statement (.ret h) := fun _ hw =>
  length_of (length_noRm (sizes_is (both hw).1 rfl) (both hw).2) rfl

theorem Length.retImm (h : Head) (imm : Word) : Statement (.retImm h imm) := fun _ hw =>
  length_of (length_noRm (sizes_is (both hw).1 rfl) (both hw).2) rfl

theorem Length.retf (h : Head) : Statement (.retf h) := fun _ hw =>
  length_of (length_noRm (sizes_is (both hw).1 rfl) (both hw).2) rfl

theorem Length.retfImm (h : Head) (imm : Word) : Statement (.retfImm h imm) := fun _ hw =>
  length_of (length_noRm (sizes_is (both hw).1 rfl) (both hw).2) rfl

theorem Length.iret (h : Head) : Statement (.iret h) := fun _ hw =>
  length_of (length_noRm (sizes_is (both hw).1 rfl) (both hw).2) rfl

theorem Length.loopnz (h : Head) (rel : Byte) : Statement (.loopnz h rel) := fun _ hw =>
  length_of (length_noRm (sizes_is (both hw).1 rfl) (both hw).2) rfl

theorem Length.loopz (h : Head) (rel : Byte) : Statement (.loopz h rel) := fun _ hw =>
  length_of (length_noRm (sizes_is (both hw).1 rfl) (both hw).2) rfl

theorem Length.loop (h : Head) (rel : Byte) : Statement (.loop h rel) := fun _ hw =>
  length_of (length_noRm (sizes_is (both hw).1 rfl) (both hw).2) rfl

theorem Length.jcxz (h : Head) (rel : Byte) : Statement (.jcxz h rel) := fun _ hw =>
  length_of (length_noRm (sizes_is (both hw).1 rfl) (both hw).2) rfl

theorem Length.movs (h : Head) : Statement (.movs h) := fun _ hw =>
  length_of (length_noRm (sizes_in (both hw).1 rfl) (both hw).2) rfl

theorem Length.stos (h : Head) : Statement (.stos h) := fun _ hw =>
  length_of (length_noRm (sizes_in (both hw).1 rfl) (both hw).2) rfl

theorem Length.lods (h : Head) : Statement (.lods h) := fun _ hw =>
  length_of (length_noRm (sizes_in (both hw).1 rfl) (both hw).2) rfl

theorem Length.cmps (h : Head) : Statement (.cmps h) := fun _ hw =>
  length_of (length_noRm (sizes_in (both hw).1 rfl) (both hw).2) rfl

theorem Length.scas (h : Head) : Statement (.scas h) := fun _ hw =>
  length_of (length_noRm (sizes_in (both hw).1 rfl) (both hw).2) rfl

theorem Length.pushReg (h : Head) : Statement (.pushReg h) := fun _ hw =>
  length_of (length_noRm (sizes_in (both hw).1 rfl) (both hw).2) rfl

theorem Length.pushSreg (h : Head) (r : SReg) : Statement (.pushSreg h r) := fun _ hw =>
  length_of (length_noRm (sizes_sreg r (both hw).1 (by intro r; cases r <;> rfl)) (both hw).2) rfl

theorem Length.pushRm (h : Head) : Statement (.pushRm h) := fun _ hw =>
  length_of (length_fe (opIn_mono (opIn_of_is (both hw).1) (by decide) (by decide)) (hasRm_of_hasDigit (both hw).2)) rfl

theorem Length.popReg (h : Head) : Statement (.popReg h) := fun _ hw =>
  length_of (length_noRm (sizes_in (both hw).1 rfl) (both hw).2) rfl

theorem Length.popSreg (h : Head) (r : SReg) : Statement (.popSreg h r) := fun _ hw =>
  length_of (length_noRm (sizes_sreg r (both (both hw).1).1 (by intro r; cases r <;> rfl)) (both hw).2) rfl

theorem Length.popRm (h : Head) : Statement (.popRm h) := fun _ hw =>
  length_of (length_rm (sizes_is (both hw).1 rfl) (hasRm_of_hasDigit (both hw).2)) rfl

theorem Length.pushf (h : Head) : Statement (.pushf h) := fun _ hw =>
  length_of (length_noRm (sizes_is (both hw).1 rfl) (both hw).2) rfl

theorem Length.popf (h : Head) : Statement (.popf h) := fun _ hw =>
  length_of (length_noRm (sizes_is (both hw).1 rfl) (both hw).2) rfl

theorem Length.clc (h : Head) : Statement (.clc h) := fun _ hw =>
  length_of (length_noRm (sizes_is (both hw).1 rfl) (both hw).2) rfl

theorem Length.stc (h : Head) : Statement (.stc h) := fun _ hw =>
  length_of (length_noRm (sizes_is (both hw).1 rfl) (both hw).2) rfl

theorem Length.cli (h : Head) : Statement (.cli h) := fun _ hw =>
  length_of (length_noRm (sizes_is (both hw).1 rfl) (both hw).2) rfl

theorem Length.sti (h : Head) : Statement (.sti h) := fun _ hw =>
  length_of (length_noRm (sizes_is (both hw).1 rfl) (both hw).2) rfl

theorem Length.cld (h : Head) : Statement (.cld h) := fun _ hw =>
  length_of (length_noRm (sizes_is (both hw).1 rfl) (both hw).2) rfl

theorem Length.std (h : Head) : Statement (.std h) := fun _ hw =>
  length_of (length_noRm (sizes_is (both hw).1 rfl) (both hw).2) rfl

theorem Length.cmc (h : Head) : Statement (.cmc h) := fun _ hw =>
  length_of (length_noRm (sizes_is (both hw).1 rfl) (both hw).2) rfl

theorem Length.lahf (h : Head) : Statement (.lahf h) := fun _ hw =>
  length_of (length_noRm (sizes_is (both hw).1 rfl) (both hw).2) rfl

theorem Length.sahf (h : Head) : Statement (.sahf h) := fun _ hw =>
  length_of (length_noRm (sizes_is (both hw).1 rfl) (both hw).2) rfl

theorem Length.inImm (h : Head) (port : Byte) : Statement (.inImm h port) := fun _ hw =>
  length_of (length_noRm (sizes_in (both hw).1 rfl) (both hw).2) rfl

theorem Length.inDx (h : Head) : Statement (.inDx h) := fun _ hw =>
  length_of (length_noRm (sizes_in (both hw).1 rfl) (both hw).2) rfl

theorem Length.outImm (h : Head) (port : Byte) : Statement (.outImm h port) := fun _ hw =>
  length_of (length_noRm (sizes_in (both hw).1 rfl) (both hw).2) rfl

theorem Length.outDx (h : Head) : Statement (.outDx h) := fun _ hw =>
  length_of (length_noRm (sizes_in (both hw).1 rfl) (both hw).2) rfl

theorem Length.seg (h : Head) (r : SReg) : Statement (.seg h r) := fun _ hw =>
  length_of (length_noRm (sizes_sreg r (both hw).1 (by intro r; cases r <;> rfl)) (both hw).2) rfl

theorem Length.repnz (h : Head) : Statement (.repnz h) := fun _ hw =>
  length_of (length_noRm (sizes_is (both hw).1 rfl) (both hw).2) rfl

theorem Length.repz (h : Head) : Statement (.repz h) := fun _ hw =>
  length_of (length_noRm (sizes_is (both hw).1 rfl) (both hw).2) rfl

theorem Length.int3 (h : Head) : Statement (.int3 h) := fun _ hw =>
  length_of (length_noRm (sizes_is (both hw).1 rfl) (both hw).2) rfl

theorem Length.int (h : Head) (vector : Byte) : Statement (.int h vector) := fun _ hw =>
  length_of (length_noRm (sizes_is (both hw).1 rfl) (both hw).2) rfl

theorem Length.into (h : Head) : Statement (.into h) := fun _ hw =>
  length_of (length_noRm (sizes_is (both hw).1 rfl) (both hw).2) rfl

theorem Length.hlt (h : Head) : Statement (.hlt h) := fun _ hw =>
  length_of (length_noRm (sizes_is (both hw).1 rfl) (both hw).2) rfl

theorem Length.reservedOpcode (h : Head) : Statement (.reservedOpcode h) := fun _ hw =>
  length_of (length_noRm (n := 0) (sizes_reserved (both hw).1) (both hw).2) rfl

theorem Length.reservedWait (h : Head) : Statement (.reservedWait h) := fun _ hw =>
  length_of (length_noRm (sizes_is (both hw).1 rfl) (both hw).2) rfl

theorem Length.reservedLock (h : Head) : Statement (.reservedLock h) := fun _ hw =>
  length_of (length_noRm (sizes_is (both hw).1 rfl) (both hw).2) rfl

theorem Length.reservedEsc (h : Head) : Statement (.reservedEsc h) := fun _ hw =>
  length_of (length_noRm (sizes_in (both hw).1 rfl) (both hw).2) rfl

theorem Length.reservedMember (h : Head) : Statement (.reservedMember h) := fun hn => absurd rfl (hn h)

end Sys2Proof.Laws
end

