-- ==== Sys2Proof/Laws/Step.lean ====
section
/-! SUPPORT. What a step can do, said once: nothing in a terminal state, a stop, or the end of one pass. -/

namespace Sys2Proof.Machine

theorem step_terminal {s : State} (h : s.runState ≠ .running) : step s = .next s := by simp [step, h]

theorem step_stop {s : State} (h : s.runState = .running) (hq : s.stopRequested = true) :
    step s = .next { s with runState := .stopped } := by simp [step, h, hq]

theorem step_pass {s : State} (h : s.runState = .running) (hq : s.stopRequested = false) :
    step s = exec (decode s.tables (fetchWindow s)) s := by simp [step, h, hq]

/-- Every case of a step, with the handler's answer in the last. -/
theorem step_cases (s : State) :
    (s.runState ≠ .running ∧ step s = .next s) ∨
    (s.runState = .running ∧ s.stopRequested = true ∧ step s = .next { s with runState := .stopped }) ∨
    (s.runState = .running ∧ s.stopRequested = false ∧
      ∃ r, step s = finish (decode s.tables (fetchWindow s)).head s r) := by
  by_cases h : s.runState = .running
  · cases hq : s.stopRequested with
    | true => exact .inr (.inl ⟨h, rfl, step_stop h hq⟩)
    | false =>
      obtain ⟨r, hr⟩ := exec_finish (decode s.tables (fetchWindow s)) s
      exact .inr (.inr ⟨h, rfl, r, (step_pass h hq).trans hr⟩)
  · exact .inl ⟨h, step_terminal h⟩

end Sys2Proof.Machine
end

