-- ==== Sys2Proof/Tests/Slice0.lean ====
section
/-! SUPPORT. Tests: an ill-formed term for each check of WellFormed; a word of spec/30_encoding.md for each instruction; one
vector of spec/95_test_vectors.md for each instruction, on one step (its line is named; a few are worked out from the rule
named instead); and a state that meets the hypotheses of each statement. -/

namespace Sys2Proof.Tests

open Sys2Proof.Machine Sys2Proof.Spec

/-- The default start state of spec/95_test_vectors.md section 1. -/
def base : State := { State.reset with cs := 0x1000, ip := 0x0100 }

/-- One step of the instruction bytes at CS:IP satisfies the check. -/
def after (bytes : List Byte) (s : State) (check : State → Bool) : Bool :=
  match step { s with mem := s.mem.writeBytes (phys s.cs s.ip) bytes } with
  | .next t => check t
  | .fault _ => false
  | .refused _ => false

/-- The state is FAULTED with this kind and reason. -/
def faultedWith (t : State) (kind : FaultKind) (reason : Option FaultReason) : Bool :=
  t.runState == .faulted && (t.faultRecord.map fun r => (r.kind, r.reason)) == some (kind, reason)

/-- Every word of the list decodes to the instruction beside it. -/
def allDecode (rows : List (List Byte × Instr)) : Bool :=
  rows.all fun p => decide (decode tRef (Window.ofBytes p.1) = p.2)

/-! ### WellFormed refuses -/

theorem test_wf_opIn_below : (Instr.orRmReg ⟨0x07, some ⟨0, .reg 0⟩⟩).wellFormed = false := by decide
theorem test_wf_opIn_above : (Instr.orRmReg ⟨0x0C, some ⟨0, .reg 0⟩⟩).wellFormed = false := by decide
theorem test_wf_opIs : (Instr.hlt ⟨0xF5, none⟩).wellFormed = false := by decide
theorem test_wf_noRm : (Instr.hlt ⟨0xF4, some ⟨0, .reg 0⟩⟩).wellFormed = false := by decide
theorem test_wf_hasRm : (Instr.addRmReg ⟨0x01, none⟩).wellFormed = false := by decide
theorem test_wf_rm_six : (Instr.addRmReg ⟨0x01, some ⟨0, .mem 6⟩⟩).wellFormed = false := by decide
theorem test_wf_hasDigit : (Instr.neg ⟨0xF6, some ⟨2, .reg 0⟩⟩).wellFormed = false := by decide
theorem test_wf_hasDigit_rm : (Instr.neg ⟨0xF6, some ⟨3, .mem 6⟩⟩).wellFormed = false := by decide
theorem test_wf_hasSreg : (Instr.movSregRm ⟨0x8E, some ⟨4, .reg 0⟩⟩).wellFormed = false := by decide
theorem test_wf_immFits : (Instr.addAccImm ⟨0x04, none⟩ 0x0100).wellFormed = false := by decide
theorem test_wf_aluImm : (Instr.addRmImm ⟨0x83, some ⟨0, .reg 0⟩⟩ 0x0100).wellFormed = false := by decide
theorem test_wf_sregOp : (Instr.pushSreg ⟨0x06, none⟩ .cs).wellFormed = false := by decide
theorem test_wf_popCs : (Instr.popSreg ⟨0x0F, none⟩ .cs).wellFormed = false := by decide
theorem test_wf_reservedByte : (Instr.reservedOpcode ⟨0x90, none⟩).wellFormed = false := by decide
theorem test_wf_reservedMember : (Instr.reservedMember ⟨0xD0, some ⟨4, .reg 0⟩⟩).wellFormed = false := by decide

/-! ### Decoding, by the encodings of 30_encoding.md R94, R101, R110, R111, R129 to R131 -/

theorem test_decode_1 : allDecode [
    ([0x00, 0xEA], .addRmReg ⟨0x00, some ⟨5, .reg 2⟩⟩),
    ([0x04, 0x80], .addAccImm ⟨0x04, none⟩ 0x0080),
    ([0x80, 0xC3, 0x80], .addRmImm ⟨0x80, some ⟨0, .reg 3⟩⟩ 0x0080),
    ([0x09, 0x2F], .orRmReg ⟨0x09, some ⟨5, .mem 7⟩⟩),
    ([0x0D, 0x80, 0x01], .orAccImm ⟨0x0D, none⟩ 0x0180),
    ([0x81, 0xCB, 0x80, 0x01], .orRmImm ⟨0x81, some ⟨1, .reg 3⟩⟩ 0x0180),
    ([0x12, 0x2E, 0x34, 0x12], .adcRmReg ⟨0x12, some ⟨5, .direct 0x1234⟩⟩),
    ([0x14, 0x80], .adcAccImm ⟨0x14, none⟩ 0x0080),
    ([0x82, 0xD3, 0x80], .adcRmImm ⟨0x82, some ⟨2, .reg 3⟩⟩ 0x0080),
    ([0x1B, 0x6E, 0xFE], .sbbRmReg ⟨0x1B, some ⟨5, .mem8 6 0xFE⟩⟩),
    ([0x1D, 0x80, 0x01], .sbbAccImm ⟨0x1D, none⟩ 0x0180),
    ([0x83, 0xDB, 0x80], .sbbRmImm ⟨0x83, some ⟨3, .reg 3⟩⟩ 0x0080),
    ([0x20, 0xA9, 0x34, 0x12], .andRmReg ⟨0x20, some ⟨5, .mem16 1 0x1234⟩⟩),
    ([0x24, 0x80], .andAccImm ⟨0x24, none⟩ 0x0080),
    ([0x80, 0xE3, 0x80], .andRmImm ⟨0x80, some ⟨4, .reg 3⟩⟩ 0x0080),
    ([0x29, 0xEA], .subRmReg ⟨0x29, some ⟨5, .reg 2⟩⟩)] = true := by decide

theorem test_decode_2 : allDecode [
    ([0x2D, 0x80, 0x01], .subAccImm ⟨0x2D, none⟩ 0x0180),
    ([0x81, 0xEB, 0x80, 0x01], .subRmImm ⟨0x81, some ⟨5, .reg 3⟩⟩ 0x0180),
    ([0x32, 0x2F], .xorRmReg ⟨0x32, some ⟨5, .mem 7⟩⟩),
    ([0x34, 0x80], .xorAccImm ⟨0x34, none⟩ 0x0080),
    ([0x82, 0xF3, 0x80], .xorRmImm ⟨0x82, some ⟨6, .reg 3⟩⟩ 0x0080),
    ([0x3B, 0x2E, 0x34, 0x12], .cmpRmReg ⟨0x3B, some ⟨5, .direct 0x1234⟩⟩),
    ([0x3D, 0x80, 0x01], .cmpAccImm ⟨0x3D, none⟩ 0x0180),
    ([0x83, 0xFB, 0x80], .cmpRmImm ⟨0x83, some ⟨7, .reg 3⟩⟩ 0x0080),
    ([0x8B, 0x6F, 0x12], .movRmReg ⟨0x8B, some ⟨5, .mem8 7 0x12⟩⟩),
    ([0xBE, 0x34, 0x12], .movRegImm ⟨0xBE, none⟩ 0x1234),
    ([0xC7, 0x47, 0x12, 0x34, 0x56], .movRmImm ⟨0xC7, some ⟨0, .mem8 7 0x12⟩⟩ 0x5634),
    ([0xA3, 0x34, 0x12], .movMoffs ⟨0xA3, none⟩ 0x1234),
    ([0x8C, 0x5F, 0x12], .movRmSreg ⟨0x8C, some ⟨3, .mem8 7 0x12⟩⟩),
    ([0x8E, 0x57, 0x12], .movSregRm ⟨0x8E, some ⟨2, .mem8 7 0x12⟩⟩),
    ([0x87, 0x6F, 0x12], .xchgRmReg ⟨0x87, some ⟨5, .mem8 7 0x12⟩⟩),
    ([0x97], .xchgAx ⟨0x97, none⟩)] = true := by decide

theorem test_decode_3 : allDecode [
    ([0x90], .nop ⟨0x90, none⟩),
    ([0x8D, 0x6F, 0x12], .lea ⟨0x8D, some ⟨5, .mem8 7 0x12⟩⟩),
    ([0xC4, 0x6F, 0x12], .les ⟨0xC4, some ⟨5, .mem8 7 0x12⟩⟩),
    ([0xC5, 0x6F, 0x12], .lds ⟨0xC5, some ⟨5, .mem8 7 0x12⟩⟩),
    ([0xD7], .xlat ⟨0xD7, none⟩),
    ([0x98], .cbw ⟨0x98, none⟩),
    ([0x99], .cwd ⟨0x99, none⟩),
    ([0x47], .incReg ⟨0x47, none⟩),
    ([0xFE, 0x47, 0x12], .incRm ⟨0xFE, some ⟨0, .mem8 7 0x12⟩⟩),
    ([0x4F], .decReg ⟨0x4F, none⟩),
    ([0xFF, 0x4F, 0x12], .decRm ⟨0xFF, some ⟨1, .mem8 7 0x12⟩⟩),
    ([0xF7, 0x5F, 0x12], .neg ⟨0xF7, some ⟨3, .mem8 7 0x12⟩⟩),
    ([0xF6, 0x67, 0x12], .mul ⟨0xF6, some ⟨4, .mem8 7 0x12⟩⟩),
    ([0xF7, 0x6F, 0x12], .imul ⟨0xF7, some ⟨5, .mem8 7 0x12⟩⟩),
    ([0xF6, 0x77, 0x12], .div ⟨0xF6, some ⟨6, .mem8 7 0x12⟩⟩),
    ([0xF7, 0x7F, 0x12], .idiv ⟨0xF7, some ⟨7, .mem8 7 0x12⟩⟩)] = true := by decide

theorem test_decode_4 : allDecode [
    ([0x27], .daa ⟨0x27, none⟩),
    ([0x2F], .das ⟨0x2F, none⟩),
    ([0x37], .aaa ⟨0x37, none⟩),
    ([0x3F], .aas ⟨0x3F, none⟩),
    ([0xD4, 0x0A], .aam ⟨0xD4, none⟩ 0x0A),
    ([0xD5, 0x0A], .aad ⟨0xD5, none⟩ 0x0A),
    ([0xF6, 0x57, 0x12], .not ⟨0xF6, some ⟨2, .mem8 7 0x12⟩⟩),
    ([0x84, 0x6F, 0x12], .testRmReg ⟨0x84, some ⟨5, .mem8 7 0x12⟩⟩),
    ([0xA9, 0x34, 0x12], .testAccImm ⟨0xA9, none⟩ 0x1234),
    ([0xF7, 0x47, 0x12, 0x34, 0x12], .testRmImm ⟨0xF7, some ⟨0, .mem8 7 0x12⟩⟩ 0x1234),
    ([0xD0, 0x47, 0x12], .rolOne ⟨0xD0, some ⟨0, .mem8 7 0x12⟩⟩),
    ([0xD2, 0x47, 0x12], .rolCl ⟨0xD2, some ⟨0, .mem8 7 0x12⟩⟩),
    ([0xD1, 0x4F, 0x12], .rorOne ⟨0xD1, some ⟨1, .mem8 7 0x12⟩⟩),
    ([0xD3, 0x4F, 0x12], .rorCl ⟨0xD3, some ⟨1, .mem8 7 0x12⟩⟩),
    ([0xD0, 0x57, 0x12], .rclOne ⟨0xD0, some ⟨2, .mem8 7 0x12⟩⟩),
    ([0xD2, 0x57, 0x12], .rclCl ⟨0xD2, some ⟨2, .mem8 7 0x12⟩⟩)] = true := by decide

theorem test_decode_5 : allDecode [
    ([0xD1, 0x5F, 0x12], .rcrOne ⟨0xD1, some ⟨3, .mem8 7 0x12⟩⟩),
    ([0xD3, 0x5F, 0x12], .rcrCl ⟨0xD3, some ⟨3, .mem8 7 0x12⟩⟩),
    ([0xD0, 0x67, 0x12], .shlOne ⟨0xD0, some ⟨4, .mem8 7 0x12⟩⟩),
    ([0xD2, 0x67, 0x12], .shlCl ⟨0xD2, some ⟨4, .mem8 7 0x12⟩⟩),
    ([0xD1, 0x6F, 0x12], .shrOne ⟨0xD1, some ⟨5, .mem8 7 0x12⟩⟩),
    ([0xD3, 0x6F, 0x12], .shrCl ⟨0xD3, some ⟨5, .mem8 7 0x12⟩⟩),
    ([0xD1, 0x7F, 0x12], .sarOne ⟨0xD1, some ⟨7, .mem8 7 0x12⟩⟩),
    ([0xD3, 0x7F, 0x12], .sarCl ⟨0xD3, some ⟨7, .mem8 7 0x12⟩⟩),
    ([0x70, 0xFE], .jo ⟨0x70, none⟩ 0xFE),
    ([0x71, 0xFE], .jno ⟨0x71, none⟩ 0xFE),
    ([0x72, 0xFE], .jb ⟨0x72, none⟩ 0xFE),
    ([0x73, 0xFE], .jnb ⟨0x73, none⟩ 0xFE),
    ([0x74, 0xFE], .jz ⟨0x74, none⟩ 0xFE),
    ([0x75, 0xFE], .jnz ⟨0x75, none⟩ 0xFE),
    ([0x76, 0xFE], .jbe ⟨0x76, none⟩ 0xFE),
    ([0x77, 0xFE], .jnbe ⟨0x77, none⟩ 0xFE)] = true := by decide

theorem test_decode_6 : allDecode [
    ([0x78, 0xFE], .js ⟨0x78, none⟩ 0xFE),
    ([0x79, 0xFE], .jns ⟨0x79, none⟩ 0xFE),
    ([0x7A, 0xFE], .jp ⟨0x7A, none⟩ 0xFE),
    ([0x7B, 0xFE], .jnp ⟨0x7B, none⟩ 0xFE),
    ([0x7C, 0xFE], .jl ⟨0x7C, none⟩ 0xFE),
    ([0x7D, 0xFE], .jnl ⟨0x7D, none⟩ 0xFE),
    ([0x7E, 0xFE], .jle ⟨0x7E, none⟩ 0xFE),
    ([0x7F, 0xFE], .jnle ⟨0x7F, none⟩ 0xFE),
    ([0xEB, 0xFE], .jmpRel8 ⟨0xEB, none⟩ 0xFE),
    ([0xE9, 0x34, 0x12], .jmpRel16 ⟨0xE9, none⟩ 0x1234),
    ([0xEA, 0x34, 0x12, 0x78, 0x56], .jmpFar ⟨0xEA, none⟩ 0x1234 0x5678),
    ([0xFF, 0x67, 0x12], .jmpRm ⟨0xFF, some ⟨4, .mem8 7 0x12⟩⟩),
    ([0xFF, 0x6F, 0x12], .jmpFarRm ⟨0xFF, some ⟨5, .mem8 7 0x12⟩⟩),
    ([0xE8, 0x34, 0x12], .callRel ⟨0xE8, none⟩ 0x1234),
    ([0x9A, 0x34, 0x12, 0x78, 0x56], .callFar ⟨0x9A, none⟩ 0x1234 0x5678),
    ([0xFF, 0x57, 0x12], .callRm ⟨0xFF, some ⟨2, .mem8 7 0x12⟩⟩)] = true := by decide

theorem test_decode_7 : allDecode [
    ([0xFF, 0x5F, 0x12], .callFarRm ⟨0xFF, some ⟨3, .mem8 7 0x12⟩⟩),
    ([0xC3], .ret ⟨0xC3, none⟩),
    ([0xC2, 0x04, 0x00], .retImm ⟨0xC2, none⟩ 0x0004),
    ([0xCB], .retf ⟨0xCB, none⟩),
    ([0xCA, 0x04, 0x00], .retfImm ⟨0xCA, none⟩ 0x0004),
    ([0xCF], .iret ⟨0xCF, none⟩),
    ([0xE0, 0xFE], .loopnz ⟨0xE0, none⟩ 0xFE),
    ([0xE1, 0xFE], .loopz ⟨0xE1, none⟩ 0xFE),
    ([0xE2, 0xFE], .loop ⟨0xE2, none⟩ 0xFE),
    ([0xE3, 0xFE], .jcxz ⟨0xE3, none⟩ 0xFE),
    ([0xA5], .movs ⟨0xA5, none⟩),
    ([0xAA], .stos ⟨0xAA, none⟩),
    ([0xAD], .lods ⟨0xAD, none⟩),
    ([0xA6], .cmps ⟨0xA6, none⟩),
    ([0xAF], .scas ⟨0xAF, none⟩),
    ([0x54], .pushReg ⟨0x54, none⟩)] = true := by decide

theorem test_decode_8 : allDecode [
    ([0x0E], .pushSreg ⟨0x0E, none⟩ .cs),
    ([0xFF, 0x77, 0x12], .pushRm ⟨0xFF, some ⟨6, .mem8 7 0x12⟩⟩),
    ([0x5F], .popReg ⟨0x5F, none⟩),
    ([0x17], .popSreg ⟨0x17, none⟩ .ss),
    ([0x8F, 0x47, 0x12], .popRm ⟨0x8F, some ⟨0, .mem8 7 0x12⟩⟩),
    ([0x9C], .pushf ⟨0x9C, none⟩),
    ([0x9D], .popf ⟨0x9D, none⟩),
    ([0xF8], .clc ⟨0xF8, none⟩),
    ([0xF9], .stc ⟨0xF9, none⟩),
    ([0xFA], .cli ⟨0xFA, none⟩),
    ([0xFB], .sti ⟨0xFB, none⟩),
    ([0xFC], .cld ⟨0xFC, none⟩),
    ([0xFD], .std ⟨0xFD, none⟩),
    ([0xF5], .cmc ⟨0xF5, none⟩),
    ([0x9F], .lahf ⟨0x9F, none⟩),
    ([0x9E], .sahf ⟨0x9E, none⟩)] = true := by decide

theorem test_decode_9 : allDecode [
    ([0xE5, 0x60], .inImm ⟨0xE5, none⟩ 0x60),
    ([0xEC], .inDx ⟨0xEC, none⟩),
    ([0xE6, 0x61], .outImm ⟨0xE6, none⟩ 0x61),
    ([0xEF], .outDx ⟨0xEF, none⟩),
    ([0x36], .seg ⟨0x36, none⟩ .ss),
    ([0xF2], .repnz ⟨0xF2, none⟩),
    ([0xF3], .repz ⟨0xF3, none⟩),
    ([0xCC], .int3 ⟨0xCC, none⟩),
    ([0xCD, 0x21], .int ⟨0xCD, none⟩ 0x21),
    ([0xCE], .into ⟨0xCE, none⟩),
    ([0xF4], .hlt ⟨0xF4, none⟩),
    ([0x0F], .reservedOpcode ⟨0x0F, none⟩),
    ([0x9B], .reservedWait ⟨0x9B, none⟩),
    ([0xF0], .reservedLock ⟨0xF0, none⟩),
    ([0xDB], .reservedEsc ⟨0xDB, none⟩),
    ([0xD1, 0x77, 0x12], .reservedMember ⟨0xD1, some ⟨6, .mem8 7 0x12⟩⟩)] = true := by decide

/-- A table word is `B0` in bits 15:8 and `B1` in bits 7:0, `B0` alone for a one-byte row. -/
theorem test_decodeTableWord :
    decodeTableWord 16 0x01D8 = some (.addRmReg ⟨0x01, some ⟨3, .reg 0⟩⟩) ∧
      decodeTableWord 8 0xF4 = some (.hlt ⟨0xF4, none⟩) := by decide

/-- The host's word stands where step fetches. -/
theorem test_withFetchWord : step (State.reset.withFetchWord 8 0xF9) =
    exec (.stc ⟨0xF9, none⟩) (State.reset.withFetchWord 8 0xF9) := by rfl

/-! ### One step of each instruction -/

/-- Line 416: ADD [BX], AL. -/
theorem test_add_rm_reg : after [0x00, 0x07]
      { base with ax := 0x0001, bx := 0x0010, ds := 0x0100, mem := (Memory.writeBytes [] 0x01010 [0x7F]) }
    (fun t => t.ip == 0x0102 && !t.flags.cf && !t.flags.pf && t.flags.af && !t.flags.zf && t.flags.sf &&
      t.flags.of && t.mem.read 0x01010 == 0x80) = true := by decide

/-- Line 412: ADD AL, 0xFF (AH untouched). -/
theorem test_add_acc_imm : after [0x04, 0xFF] { base with ax := 0x1201 }
    (fun t => t.ax == 0x1200 && t.ip == 0x0102 && t.flags.cf && t.flags.pf && t.flags.af && t.flags.zf &&
      !t.flags.sf && !t.flags.of) = true := by decide

/-- Line 414: ADD BX, -1 (83 /0, sign-extended byte). -/
theorem test_add_rm_imm : after [0x83, 0xC3, 0xFF] { base with bx := 0x0001 }
    (fun t => t.bx == 0x0000 && t.ip == 0x0103 && t.flags.cf && t.flags.pf && t.flags.af && t.flags.zf &&
      !t.flags.sf && !t.flags.of) = true := by decide

/-- Line 489: OR AX, BX. -/
theorem test_or_rm_reg : after [0x09, 0xD8]
      { base with ax := 0x8000, bx := 0x0001, flags := { Flags.zero with cf := true, of := true } }
    (fun t => t.ax == 0x8001 && t.ip == 0x0102 && !t.flags.cf && !t.flags.pf && !t.flags.af && !t.flags.zf &&
      t.flags.sf && !t.flags.of) = true := by decide

/-- Line 490: OR AL, 0. -/
theorem test_or_acc_imm : after [0x0C, 0x00] { base with ax := 0x0000 }
    (fun t => t.ip == 0x0102 && !t.flags.cf && t.flags.pf && !t.flags.af && t.flags.zf && !t.flags.sf &&
      !t.flags.of) = true := by decide

/-- By R202. -/
theorem test_or_rm_imm : after [0x80, 0xCB, 0x0F] { base with bx := 0x00F0 }
    (fun t => t.bx == 0x00FF && t.flags.sf && !t.flags.zf && t.flags.pf) = true := by decide

/-- Line 418: ADC AX, BX. -/
theorem test_adc_rm_reg : after [0x11, 0xD8]
      { base with ax := 0xFFFF, bx := 0x0000, flags := { Flags.zero with cf := true } }
    (fun t => t.ax == 0x0000 && t.ip == 0x0102 && t.flags.cf && t.flags.pf && t.flags.af && t.flags.zf &&
      !t.flags.sf && !t.flags.of) = true := by decide

/-- Line 420: ADC AL, 0x7F. -/
theorem test_adc_acc_imm : after [0x14, 0x7F] { base with ax := 0x0000, flags := { Flags.zero with cf := true } }
    (fun t => t.ax == 0x0080 && t.ip == 0x0102 && !t.flags.cf && !t.flags.pf && t.flags.af && !t.flags.zf &&
      t.flags.sf && t.flags.of) = true := by decide

/-- By R172. -/
theorem test_adc_rm_imm : after [0x80, 0xD3, 0x01] { base with bx := 0x00FF, flags := { Flags.zero with cf := true } }
    (fun t => t.bx == 0x0001 && t.flags.cf && t.flags.af && !t.flags.of) = true := by decide

/-- Line 425: SBB AX, BX. -/
theorem test_sbb_rm_reg : after [0x19, 0xD8]
      { base with ax := 0x0000, bx := 0xFFFF, flags := { Flags.zero with cf := true } }
    (fun t => t.ip == 0x0102 && t.flags.cf && t.flags.pf && t.flags.af && t.flags.zf && !t.flags.sf &&
      !t.flags.of) = true := by decide

/-- Line 426: SBB AL, 0. -/
theorem test_sbb_acc_imm : after [0x1C, 0x00] { base with ax := 0x0000, flags := { Flags.zero with cf := true } }
    (fun t => t.ax == 0x00FF && t.ip == 0x0102 && t.flags.cf && t.flags.pf && t.flags.af && !t.flags.zf &&
      t.flags.sf && !t.flags.of) = true := by decide

/-- By R174. -/
theorem test_sbb_rm_imm : after [0x80, 0xDB, 0x01] { base with flags := { Flags.zero with cf := true } }
    (fun t => t.bx == 0x00FE && t.flags.cf && t.flags.af && t.flags.sf) = true := by decide

/-- Line 486: AND AX, BX. -/
theorem test_and_rm_reg : after [0x21, 0xD8]
      { base with ax := 0xFF0F, bx := 0x0FF0, flags := { Flags.zero with cf := true, af := true, of := true } }
    (fun t => t.ax == 0x0F00 && t.ip == 0x0102 && !t.flags.cf && t.flags.pf && t.flags.af && !t.flags.zf &&
      !t.flags.sf && !t.flags.of) = true := by decide

/-- Line 487: AND AL, 0x0F. -/
theorem test_and_acc_imm : after [0x24, 0x0F] { base with ax := 0x12F0, flags := { Flags.zero with cf := true } }
    (fun t => t.ax == 0x1200 && t.ip == 0x0102 && !t.flags.cf && t.flags.pf && !t.flags.af && t.flags.zf &&
      !t.flags.sf && !t.flags.of) = true := by decide

/-- Line 488: AND WORD [BX], 0x00FF (81 /4). -/
theorem test_and_rm_imm : after [0x81, 0x27, 0xFF, 0x00]
      { base with bx := 0x0010, ds := 0x0100, mem := (Memory.writeBytes [] 0x01010 [0x34, 0x12]) }
    (fun t => t.ip == 0x0104 && !t.flags.cf && !t.flags.pf && !t.flags.af && !t.flags.zf && !t.flags.sf &&
      !t.flags.of && t.mem.read 0x01010 == 0x34 && t.mem.read 0x01011 == 0x00) = true := by decide

/-- Line 422: SUB AX, BX. -/
theorem test_sub_rm_reg : after [0x29, 0xD8] { base with ax := 0x0000, bx := 0x0001 }
    (fun t => t.ax == 0xFFFF && t.ip == 0x0102 && t.flags.cf && t.flags.pf && t.flags.af && !t.flags.zf &&
      t.flags.sf && !t.flags.of) = true := by decide

/-- Line 423: SUB AL, 1. -/
theorem test_sub_acc_imm : after [0x2C, 0x01] { base with ax := 0x0080 }
    (fun t => t.ax == 0x007F && t.ip == 0x0102 && !t.flags.cf && !t.flags.pf && t.flags.af && !t.flags.zf &&
      !t.flags.sf && t.flags.of) = true := by decide

/-- By R173. -/
theorem test_sub_rm_imm : after [0x81, 0xEB, 0x01, 0x00] { base with bx := 0x8000 }
    (fun t => t.bx == 0x7FFF && t.flags.of && !t.flags.cf && t.ip == 0x0104) = true := by decide

/-- Line 491: XOR AX, AX. -/
theorem test_xor_rm_reg : after [0x31, 0xC0]
      { base with ax := 0x1234, flags := { Flags.zero with cf := true, of := true } }
    (fun t => t.ax == 0x0000 && t.ip == 0x0102 && !t.flags.cf && t.flags.pf && !t.flags.af && t.flags.zf &&
      !t.flags.sf && !t.flags.of) = true := by decide

/-- Line 492: XOR AL, 0xFF. -/
theorem test_xor_acc_imm : after [0x34, 0xFF] { base with ax := 0x00AA }
    (fun t => t.ax == 0x0055 && t.ip == 0x0102 && !t.flags.cf && t.flags.pf && !t.flags.af && !t.flags.zf &&
      !t.flags.sf && !t.flags.of) = true := by decide

/-- By R203. -/
theorem test_xor_rm_imm : after [0x83, 0xF3, 0xFF] { base with bx := 0x1234 }
    (fun t => t.bx == 0xEDCB && t.flags.sf && !t.flags.pf) = true := by decide

/-- Line 427: CMP AX, BX (equal). -/
theorem test_cmp_rm_reg : after [0x39, 0xD8] { base with ax := 0x1234, bx := 0x1234 }
    (fun t => t.ip == 0x0102 && !t.flags.cf && t.flags.pf && !t.flags.af && t.flags.zf && !t.flags.sf &&
      !t.flags.of) = true := by decide

/-- Line 428: CMP AL, 0x10. -/
theorem test_cmp_acc_imm : after [0x3C, 0x10] { base with ax := 0x0005 }
    (fun t => t.ip == 0x0102 && t.flags.cf && t.flags.pf && !t.flags.af && !t.flags.zf && t.flags.sf &&
      !t.flags.of) = true := by decide

/-- Line 429: CMP BYTE [BX], 0x80 (80 /7: memory not written). -/
theorem test_cmp_rm_imm : after [0x80, 0x3F, 0x80]
      { base with bx := 0x0010, ds := 0x0100, mem := (Memory.writeBytes [] 0x01010 [0x7F]) }
    (fun t => t.ip == 0x0103 && t.flags.cf && t.flags.pf && !t.flags.af && !t.flags.zf && t.flags.sf &&
      t.flags.of) = true := by decide

/-- Line 360: MOV [BX], AX. -/
theorem test_mov_rm_reg : after [0x89, 0x07] { base with ax := 0xBEEF, bx := 0x0010, ds := 0x0100 }
    (fun t => t.ip == 0x0102 && t.mem.read 0x01010 == 0xEF && t.mem.read 0x01011 == 0xBE) = true := by decide

/-- Line 357: MOV AH, 0xAB. -/
theorem test_mov_reg_imm : after [0xB4, 0xAB] { base with ax := 0x1234 }
    (fun t => t.ax == 0xAB34 && t.ip == 0x0102) = true := by decide

/-- Line 366: MOV WORD [0x2000], 0x1234. -/
theorem test_mov_rm_imm : after [0xC7, 0x06, 0x00, 0x20, 0x34, 0x12] { base with ds := 0x0100 }
    (fun t => t.ip == 0x0106 && t.mem.read 0x03000 == 0x34 && t.mem.read 0x03001 == 0x12) = true := by decide

/-- Line 230: MOV [0xFFFF], AX (top of the space). -/
theorem test_mov_moffs : after [0xA3, 0xFF, 0xFF] { base with ds := 0xFFFF, ax := 0xBEEF }
    (fun t => t.ip == 0x0103 && t.mem.read 0x10FFEF == 0xEF && t.mem.read 0x10FFF0 == 0xBE) = true := by decide

/-- Line 375: MOV [0x0020], ES. -/
theorem test_mov_rm_sreg : after [0x8C, 0x06, 0x20, 0x00] { base with es := 0x0200, ds := 0x0100 }
    (fun t => t.ip == 0x0104 && t.mem.read 0x01020 == 0x00 && t.mem.read 0x01021 == 0x02) = true := by decide

/-- Line 373: MOV DS, AX. -/
theorem test_mov_sreg_rm : after [0x8E, 0xD8] { base with ax := 0x0100 }
    (fun t => t.ds == 0x0100 && t.ip == 0x0102) = true := by decide

/-- Line 381: XCHG [BX], AX. -/
theorem test_xchg_rm_reg : after [0x87, 0x07]
      { base with ax := 0x1111, bx := 0x0010, ds := 0x0100, mem := (Memory.writeBytes [] 0x01010 [0x22, 0x22]) }
    (fun t => t.ax == 0x2222 && t.ip == 0x0102 && t.mem.read 0x01010 == 0x11 &&
      t.mem.read 0x01011 == 0x11) = true := by decide

/-- Line 382: XCHG AX, BX. -/
theorem test_xchg_ax : after [0x93] { base with ax := 0x1111, bx := 0x2222 }
    (fun t => t.ax == 0x2222 && t.bx == 0x1111 && t.ip == 0x0101) = true := by decide

/-- Line 384: NOP. -/
theorem test_nop : after [0x90] { base with ax := 0x1234 }
    (fun t => t.ip == 0x0101) = true := by decide

/-- Line 385: LEA AX, [BX+5]. -/
theorem test_lea : after [0x8D, 0x47, 0x05] { base with bx := 0x0010 }
    (fun t => t.ax == 0x0015 && t.ip == 0x0103) = true := by decide

/-- Line 389: LES AX, [BX]. -/
theorem test_les : after [0xC4, 0x07]
      { base with bx := 0x0010, ds := 0x0100, mem := (Memory.writeBytes [] 0x01010 [0x34, 0x12, 0x00, 0x30]) }
    (fun t => t.ax == 0x1234 && t.es == 0x3000 && t.ip == 0x0102) = true := by decide

/-- Line 390: LDS SI, [BX]. -/
theorem test_lds : after [0xC5, 0x37]
      { base with bx := 0x0010, ds := 0x0100, mem := (Memory.writeBytes [] 0x01010 [0x34, 0x12, 0x00, 0x30]) }
    (fun t => t.si == 0x1234 && t.ds == 0x3000 && t.ip == 0x0102) = true := by decide

/-- Line 393: XLAT. -/
theorem test_xlat : after [0xD7]
      { base with bx := 0x2000, ax := 0x1203, mem := (Memory.writeBytes [] 0x02003 [0x99]) }
    (fun t => t.ax == 0x1299 && t.ip == 0x0101) = true := by decide

/-- Line 395: CBW. -/
theorem test_cbw : after [0x98] { base with ax := 0x1280 }
    (fun t => t.ax == 0xFF80 && t.ip == 0x0101) = true := by decide

/-- Line 397: CWD. -/
theorem test_cwd : after [0x99] { base with ax := 0x8000, dx := 0x1234 }
    (fun t => t.dx == 0xFFFF && t.ip == 0x0101) = true := by decide

/-- Line 430: INC AX (CF kept). -/
theorem test_inc_reg : after [0x40] { base with ax := 0x7FFF, flags := { Flags.zero with cf := true } }
    (fun t => t.ax == 0x8000 && t.ip == 0x0101 && t.flags.cf && t.flags.pf && t.flags.af && !t.flags.zf &&
      t.flags.sf && t.flags.of) = true := by decide

/-- Line 433: INC WORD [BX] (FF /0). -/
theorem test_inc_rm : after [0xFF, 0x07]
      { base with bx := 0x0010, ds := 0x0100, flags := { Flags.zero with cf := true }, mem := (Memory.writeBytes [] 0x01010 [0xFF, 0x00]) }
    (fun t => t.ip == 0x0102 && t.flags.cf && t.flags.pf && t.flags.af && !t.flags.zf && !t.flags.sf &&
      !t.flags.of && t.mem.read 0x01010 == 0x00 && t.mem.read 0x01011 == 0x01) = true := by decide

/-- Line 434: DEC AX. -/
theorem test_dec_reg : after [0x48] { base with ax := 0x0000 }
    (fun t => t.ax == 0xFFFF && t.ip == 0x0101 && !t.flags.cf && t.flags.pf && t.flags.af && !t.flags.zf &&
      t.flags.sf && !t.flags.of) = true := by decide

/-- Line 437: DEC BYTE [BX] (FE /1). -/
theorem test_dec_rm : after [0xFE, 0x0F]
      { base with bx := 0x0010, ds := 0x0100, mem := (Memory.writeBytes [] 0x01010 [0x01]) }
    (fun t => t.ip == 0x0102 && !t.flags.cf && t.flags.pf && !t.flags.af && t.flags.zf && !t.flags.sf &&
      !t.flags.of && t.mem.read 0x01010 == 0x00) = true := by decide

/-- Line 440: NEG AX. -/
theorem test_neg : after [0xF7, 0xD8] { base with ax := 0x0001 }
    (fun t => t.ax == 0xFFFF && t.ip == 0x0102 && t.flags.cf && t.flags.pf && t.flags.af && !t.flags.zf &&
      t.flags.sf && !t.flags.of) = true := by decide

/-- Line 445: MUL BX. -/
theorem test_mul : after [0xF7, 0xE3] { base with ax := 0xFFFF, bx := 0xFFFF, dx := 0x1111 }
    (fun t => t.ax == 0x0001 && t.dx == 0xFFFE && t.ip == 0x0102 && t.flags.cf && t.flags.of) = true := by decide

/-- Line 448: IMUL BX. -/
theorem test_imul : after [0xF7, 0xEB] { base with ax := 0x8000, bx := 0x0002 }
    (fun t => t.ax == 0x0000 && t.dx == 0xFFFF && t.ip == 0x0102 && t.flags.cf && t.flags.of) = true := by decide

/-- Line 450: DIV BX (0x10000 / 2). -/
theorem test_div : after [0xF7, 0xF3] { base with ax := 0x0000, dx := 0x0001, bx := 0x0002 }
    (fun t => t.ax == 0x8000 && t.dx == 0x0000 && t.ip == 0x0102) = true := by decide

/-- Line 458: IDIV BX (-1 / -1). -/
theorem test_idiv : after [0xF7, 0xFB] { base with ax := 0xFFFF, dx := 0xFFFF, bx := 0xFFFF }
    (fun t => t.ax == 0x0001 && t.dx == 0x0000 && t.ip == 0x0102) = true := by decide

/-- Line 460: DAA. -/
theorem test_daa : after [0x27] { base with ax := 0x000F }
    (fun t => t.ax == 0x0015 && t.ip == 0x0101 && !t.flags.cf && !t.flags.pf && t.flags.af && !t.flags.zf &&
      !t.flags.sf) = true := by decide

/-- Line 464: DAS. -/
theorem test_das : after [0x2F] { base with ax := 0x00EE, flags := { Flags.zero with cf := true, af := true } }
    (fun t => t.ax == 0x0088 && t.ip == 0x0101 && t.flags.cf && t.flags.pf && t.flags.af && !t.flags.zf &&
      t.flags.sf) = true := by decide

/-- Line 467: AAA. -/
theorem test_aaa : after [0x37] { base with ax := 0x000F }
    (fun t => t.ax == 0x0105 && t.ip == 0x0101 && t.flags.cf && t.flags.af) = true := by decide

/-- Line 470: AAS. -/
theorem test_aas : after [0x3F] { base with ax := 0x0100, flags := { Flags.zero with af := true } }
    (fun t => t.ax == 0x000A && t.ip == 0x0101 && t.flags.cf && t.flags.af) = true := by decide

/-- Line 472: AAM. -/
theorem test_aam : after [0xD4, 0x0A] { base with ax := 0xFF3F }
    (fun t => t.ax == 0x0603 && t.ip == 0x0102 && t.flags.pf && !t.flags.zf && !t.flags.sf) = true := by decide

/-- Line 475: AAD. -/
theorem test_aad : after [0xD5, 0x0A] { base with ax := 0x0605 }
    (fun t => t.ax == 0x0041 && t.ip == 0x0102 && t.flags.pf && !t.flags.zf && !t.flags.sf) = true := by decide

/-- Line 493: NOT AX (no flag written). -/
theorem test_not : after [0xF7, 0xD0] { base with ax := 0x00FF, flags := { Flags.zero with cf := true, zf := true } }
    (fun t => t.ax == 0xFF00 && t.ip == 0x0102 && t.flags.cf && !t.flags.pf && !t.flags.af && t.flags.zf &&
      !t.flags.sf && !t.flags.of) = true := by decide

/-- Line 495: TEST AX, BX (operands unchanged). -/
theorem test_test_rm_reg : after [0x85, 0xD8]
      { base with ax := 0x8001, bx := 0x8000, flags := { Flags.zero with cf := true, of := true } }
    (fun t => t.ip == 0x0102 && !t.flags.cf && t.flags.pf && !t.flags.af && !t.flags.zf && t.flags.sf &&
      !t.flags.of) = true := by decide

/-- Line 496: TEST AL, 1. -/
theorem test_test_acc_imm : after [0xA8, 0x01] { base with ax := 0x0002 }
    (fun t => t.ip == 0x0102 && !t.flags.cf && t.flags.pf && !t.flags.af && t.flags.zf && !t.flags.sf &&
      !t.flags.of) = true := by decide

/-- Line 498: TEST BX, 0x8000 (F7 /0). -/
theorem test_test_rm_imm : after [0xF7, 0xC3, 0x00, 0x80] { base with bx := 0x8000 }
    (fun t => t.ip == 0x0104 && !t.flags.cf && t.flags.pf && !t.flags.af && !t.flags.zf && t.flags.sf &&
      !t.flags.of) = true := by decide

/-- Line 501: ROL AL, 1. -/
theorem test_rol_one : after [0xD0, 0xC0] { base with ax := 0x0081 }
    (fun t => t.ax == 0x0003 && t.ip == 0x0102 && t.flags.cf && !t.flags.pf && !t.flags.af && !t.flags.zf &&
      !t.flags.sf && t.flags.of) = true := by decide

/-- Line 502: ROL AX, CL. -/
theorem test_rol_cl : after [0xD3, 0xC0] { base with ax := 0x1234, cx := 0x0004 }
    (fun t => t.ax == 0x2341 && t.ip == 0x0102 && t.flags.cf && !t.flags.pf && !t.flags.af && !t.flags.zf &&
      !t.flags.sf) = true := by decide

/-- Line 504: ROR AL, 1. -/
theorem test_ror_one : after [0xD0, 0xC8] { base with ax := 0x0001 }
    (fun t => t.ax == 0x0080 && t.ip == 0x0102 && t.flags.cf && !t.flags.pf && !t.flags.af && !t.flags.zf &&
      !t.flags.sf && t.flags.of) = true := by decide

/-- By R208. -/
theorem test_ror_cl : after [0xD2, 0xC8] { base with ax := 0x0001, cx := 0x0004 }
    (fun t => t.ax == 0x0010 && !t.flags.cf) = true := by decide

/-- Line 506: RCL AL, 1. -/
theorem test_rcl_one : after [0xD0, 0xD0] { base with ax := 0x0080, flags := { Flags.zero with cf := true } }
    (fun t => t.ax == 0x0001 && t.ip == 0x0102 && t.flags.cf && !t.flags.pf && !t.flags.af && !t.flags.zf &&
      !t.flags.sf && t.flags.of) = true := by decide

/-- Line 507: RCL AX, CL (17 steps of a 17-bit rotate). -/
theorem test_rcl_cl : after [0xD3, 0xD0]
      { base with ax := 0x1234, cx := 0x0011, flags := { Flags.zero with cf := true } }
    (fun t => t.ip == 0x0102 && t.flags.cf && !t.flags.pf && !t.flags.af && !t.flags.zf &&
      !t.flags.sf) = true := by decide

/-- Line 508: RCR AL, 1. -/
theorem test_rcr_one : after [0xD0, 0xD8] { base with ax := 0x0001, flags := { Flags.zero with cf := true } }
    (fun t => t.ax == 0x0080 && t.ip == 0x0102 && t.flags.cf && !t.flags.pf && !t.flags.af && !t.flags.zf &&
      !t.flags.sf && t.flags.of) = true := by decide

/-- By R210. -/
theorem test_rcr_cl : after [0xD2, 0xD8] { base with ax := 0x0001, cx := 0x0002 }
    (fun t => t.ax == 0x0080 && !t.flags.cf) = true := by decide

/-- Line 515: SHL WORD [0x2000], 1. -/
theorem test_shl_one : after [0xD1, 0x26, 0x00, 0x20]
      { base with ds := 0x0100, mem := (Memory.writeBytes [] 0x03000 [0x81, 0x40]) }
    (fun t => t.ip == 0x0104 && !t.flags.cf && !t.flags.pf && !t.flags.zf && t.flags.sf && t.flags.of &&
      t.mem.read 0x03000 == 0x02 && t.mem.read 0x03001 == 0x81) = true := by decide

/-- Line 512: SHL AX, CL (count 16). -/
theorem test_shl_cl : after [0xD3, 0xE0] { base with ax := 0x0001, cx := 0x0010 }
    (fun t => t.ax == 0x0000 && t.ip == 0x0102 && t.flags.cf && t.flags.pf && t.flags.zf &&
      !t.flags.sf) = true := by decide

/-- Line 516: SHR AL, 1. -/
theorem test_shr_one : after [0xD0, 0xE8] { base with ax := 0x0081 }
    (fun t => t.ax == 0x0040 && t.ip == 0x0102 && t.flags.cf && !t.flags.pf && !t.flags.zf && !t.flags.sf &&
      t.flags.of) = true := by decide

/-- Line 517: SHR AX, CL. -/
theorem test_shr_cl : after [0xD3, 0xE8] { base with ax := 0x8008, cx := 0x0004 }
    (fun t => t.ax == 0x0800 && t.ip == 0x0102 && t.flags.cf && t.flags.pf && !t.flags.zf &&
      !t.flags.sf) = true := by decide

/-- Line 518: SAR AL, 1. -/
theorem test_sar_one : after [0xD0, 0xF8] { base with ax := 0x0081 }
    (fun t => t.ax == 0x00C0 && t.ip == 0x0102 && t.flags.cf && t.flags.pf && !t.flags.zf && t.flags.sf &&
      !t.flags.of) = true := by decide

/-- Line 519: SAR AX, CL (count 15). -/
theorem test_sar_cl : after [0xD3, 0xF8] { base with ax := 0x8000, cx := 0x000F }
    (fun t => t.ax == 0xFFFF && t.ip == 0x0102 && !t.flags.cf && t.flags.pf && !t.flags.zf &&
      t.flags.sf) = true := by decide

/-- Line 530: JO +0x10 (taken). -/
theorem test_jo : after [0x70, 0x10] { base with flags := { Flags.zero with of := true } }
    (fun t => t.ip == 0x0112) = true := by decide

/-- Line 532: JNO +0x10 (taken). -/
theorem test_jno : after [0x71, 0x10] base
    (fun t => t.ip == 0x0112) = true := by decide

/-- Line 534: JB +0x10 (taken). -/
theorem test_jb : after [0x72, 0x10] { base with flags := { Flags.zero with cf := true } }
    (fun t => t.ip == 0x0112) = true := by decide

/-- Line 536: JNB +0x10 (taken). -/
theorem test_jnb : after [0x73, 0x10] base
    (fun t => t.ip == 0x0112) = true := by decide

/-- Line 538: JZ +5 (taken). -/
theorem test_jz : after [0x74, 0x05] { base with flags := { Flags.zero with zf := true } }
    (fun t => t.ip == 0x0107) = true := by decide

/-- Line 540: JNZ -2 (taken: jumps to itself). -/
theorem test_jnz : after [0x75, 0xFE] base
    (fun t => t.ip == 0x0100) = true := by decide

/-- Line 542: JBE +0x10 (taken by ZF). -/
theorem test_jbe : after [0x76, 0x10] { base with flags := { Flags.zero with zf := true } }
    (fun t => t.ip == 0x0112) = true := by decide

/-- Line 545: JNBE +0x10 (taken). -/
theorem test_jnbe : after [0x77, 0x10] base
    (fun t => t.ip == 0x0112) = true := by decide

/-- Line 547: JS -0x80 (taken: the farthest backward). -/
theorem test_js : after [0x78, 0x80] { base with flags := { Flags.zero with sf := true } }
    (fun t => t.ip == 0x0082) = true := by decide

/-- Line 549: JNS +0x7F (taken: the farthest forward). -/
theorem test_jns : after [0x79, 0x7F] base
    (fun t => t.ip == 0x0181) = true := by decide

/-- Line 551: JP +0x10 (taken). -/
theorem test_jp : after [0x7A, 0x10] { base with flags := { Flags.zero with pf := true } }
    (fun t => t.ip == 0x0112) = true := by decide

/-- Line 553: JNP +0x10 (taken). -/
theorem test_jnp : after [0x7B, 0x10] base
    (fun t => t.ip == 0x0112) = true := by decide

/-- Line 555: JL +0x10 (taken: SF != OF). -/
theorem test_jl : after [0x7C, 0x10] { base with flags := { Flags.zero with sf := true } }
    (fun t => t.ip == 0x0112) = true := by decide

/-- Line 558: JNL +0x10 (taken: SF = OF = 1). -/
theorem test_jnl : after [0x7D, 0x10] { base with flags := { Flags.zero with sf := true, of := true } }
    (fun t => t.ip == 0x0112) = true := by decide

/-- Line 560: JLE +0x10 (taken by ZF). -/
theorem test_jle : after [0x7E, 0x10] { base with flags := { Flags.zero with zf := true } }
    (fun t => t.ip == 0x0112) = true := by decide

/-- Line 563: JNLE +0x10 (taken). -/
theorem test_jnle : after [0x7F, 0x10] base
    (fun t => t.ip == 0x0112) = true := by decide

/-- Line 571: JMP short +0x28 (the reset jump of the reference image). -/
theorem test_jmp_rel8 : after [0xEB, 0x28] { base with cs := 0xF000 }
    (fun t => t.ip == 0x012A) = true := by decide

/-- Line 573: JMP near +0x1000. -/
theorem test_jmp_rel16 : after [0xE9, 0x00, 0x10] base
    (fun t => t.ip == 0x1103) = true := by decide

/-- Line 576: JMP 2000:1234. -/
theorem test_jmp_far : after [0xEA, 0x34, 0x12, 0x00, 0x20] base
    (fun t => t.cs == 0x2000 && t.ip == 0x1234) = true := by decide

/-- Line 577: JMP BX. -/
theorem test_jmp_rm : after [0xFF, 0xE3] { base with bx := 0x0200 }
    (fun t => t.ip == 0x0200) = true := by decide

/-- Line 579: JMP FAR [BX]. -/
theorem test_jmp_far_rm : after [0xFF, 0x2F]
      { base with bx := 0x0010, ds := 0x0200, mem := (Memory.writeBytes [] 0x02010 [0x78, 0x56, 0x00, 0x30]) }
    (fun t => t.cs == 0x3000 && t.ip == 0x5678) = true := by decide

/-- Line 581: CALL near +0x10. -/
theorem test_call_rel : after [0xE8, 0x10, 0x00] { base with ss := 0x2000, sp := 0x0100 }
    (fun t => t.sp == 0x00FE && t.ip == 0x0113 && t.mem.read 0x200FE == 0x03 &&
      t.mem.read 0x200FF == 0x01) = true := by decide

/-- Line 582: CALL 3000:1234. -/
theorem test_call_far : after [0x9A, 0x34, 0x12, 0x00, 0x30] { base with ss := 0x2000, sp := 0x0100 }
    (fun t => t.sp == 0x00FC && t.cs == 0x3000 && t.ip == 0x1234 && t.mem.read 0x200FE == 0x00 &&
      t.mem.read 0x200FF == 0x10 && t.mem.read 0x200FC == 0x05 && t.mem.read 0x200FD == 0x01) = true := by decide

/-- Line 583: CALL BX. -/
theorem test_call_rm : after [0xFF, 0xD3] { base with ss := 0x2000, sp := 0x0100, bx := 0x0400 }
    (fun t => t.sp == 0x00FE && t.ip == 0x0400 && t.mem.read 0x200FE == 0x02 &&
      t.mem.read 0x200FF == 0x01) = true := by decide

/-- Line 586: CALL FAR [SI]. -/
theorem test_call_far_rm : after [0xFF, 0x1C]
      { base with ss := 0x2000, sp := 0x0100, si := 0x0020, ds := 0x0200, mem := (Memory.writeBytes [] 0x02020 [0xCD, 0xAB, 0x00, 0x40]) }
    (fun t => t.sp == 0x00FC && t.cs == 0x4000 && t.ip == 0xABCD && t.mem.read 0x200FE == 0x00 &&
      t.mem.read 0x200FF == 0x10 && t.mem.read 0x200FC == 0x02 && t.mem.read 0x200FD == 0x01) = true := by decide

/-- Line 588: RET. -/
theorem test_ret : after [0xC3]
      { base with ss := 0x2000, sp := 0x00FE, mem := (Memory.writeBytes [] 0x200FE [0x03, 0x01]) }
    (fun t => t.sp == 0x0100 && t.ip == 0x0103) = true := by decide

/-- Line 589: RET 4. -/
theorem test_ret_imm : after [0xC2, 0x04, 0x00]
      { base with ss := 0x2000, sp := 0x00FE, mem := (Memory.writeBytes [] 0x200FE [0x03, 0x01]) }
    (fun t => t.sp == 0x0104 && t.ip == 0x0103) = true := by decide

/-- Line 590: RETF. -/
theorem test_retf : after [0xCB]
      { base with ss := 0x2000, sp := 0x00FC, mem := (Memory.writeBytes [] 0x200FC [0x05, 0x01, 0x00, 0x10]) }
    (fun t => t.sp == 0x0100 && t.ip == 0x0105) = true := by decide

/-- Line 591: RETF 2. -/
theorem test_retf_imm : after [0xCA, 0x02, 0x00]
      { base with ss := 0x2000, sp := 0x00FC, mem := (Memory.writeBytes [] 0x200FC [0x05, 0x01, 0x00, 0x10]) }
    (fun t => t.sp == 0x0102 && t.ip == 0x0105) = true := by decide

/-- Line 592: IRET (flags image 0xFFFF: reserved bits dropped). -/
theorem test_iret : after [0xCF]
      { base with ss := 0x2000, sp := 0x00FA, mem := (Memory.writeBytes [] 0x200FA [0x02, 0x01, 0x00, 0x10, 0xFF, 0xFF]) }
    (fun t => t.sp == 0x0100 && t.ip == 0x0102 && t.flags.cf && t.flags.pf && t.flags.af && t.flags.zf &&
      t.flags.sf && t.flags.of && t.flags.tf && t.flags.ief && t.flags.df) = true := by decide

/-- Line 600: LOOPNZ +0x10 (taken). -/
theorem test_loopnz : after [0xE0, 0x10] { base with cx := 0x0005 }
    (fun t => t.cx == 0x0004 && t.ip == 0x0112) = true := by decide

/-- Line 597: LOOPZ +0x10 (taken). -/
theorem test_loopz : after [0xE1, 0x10] { base with cx := 0x0005, flags := { Flags.zero with zf := true } }
    (fun t => t.cx == 0x0004 && t.ip == 0x0112) = true := by decide

/-- Line 594: LOOP -4 (taken). -/
theorem test_loop : after [0xE2, 0xFC] { base with cx := 0x0002 }
    (fun t => t.cx == 0x0001 && t.ip == 0x00FE) = true := by decide

/-- Line 602: JCXZ +0x10 (taken, CX unchanged). -/
theorem test_jcxz : after [0xE3, 0x10] { base with cx := 0x0000 }
    (fun t => t.ip == 0x0112) = true := by decide

/-- Line 617: MOVSW with DF = 1 (indices step down by 2). -/
theorem test_movs : after [0xA5]
      { base with ds := 0x0100, es := 0x0200, si := 0x0010, di := 0x0020, flags := { Flags.zero with df := true }, mem := (Memory.writeBytes [] 0x01010 [0x34, 0x12]) }
    (fun t => t.si == 0x000E && t.di == 0x001E && t.ip == 0x0101 && t.mem.read 0x02020 == 0x34 &&
      t.mem.read 0x02021 == 0x12) = true := by decide

/-- Line 627: STOSW. -/
theorem test_stos : after [0xAB] { base with ds := 0x0100, es := 0x0200, si := 0x0010, di := 0x0020, ax := 0x12EE }
    (fun t => t.di == 0x0022 && t.ip == 0x0101 && t.mem.read 0x02020 == 0xEE &&
      t.mem.read 0x02021 == 0x12) = true := by decide

/-- Line 629: LODSB (AH untouched). -/
theorem test_lods : after [0xAC]
      { base with ds := 0x0100, es := 0x0200, si := 0x0010, di := 0x0020, ax := 0xFF00, mem := (Memory.writeBytes [] 0x01010 [0x5A]) }
    (fun t => t.ax == 0xFF5A && t.si == 0x0011 && t.ip == 0x0101) = true := by decide

/-- Line 632: CMPSB (equal). -/
theorem test_cmps : after [0xA6]
      { base with ds := 0x0100, es := 0x0200, si := 0x0010, di := 0x0020, mem := (Memory.writeBytes (Memory.writeBytes [] 0x01010 [0x41]) 0x02020 [0x41]) }
    (fun t => t.si == 0x0011 && t.di == 0x0021 && t.ip == 0x0101 && !t.flags.cf && t.flags.pf && !t.flags.af &&
      t.flags.zf && !t.flags.sf && !t.flags.of) = true := by decide

/-- Line 639: SCASW (equal). -/
theorem test_scas : after [0xAF]
      { base with ds := 0x0100, es := 0x0200, si := 0x0010, di := 0x0020, ax := 0x1234, mem := (Memory.writeBytes [] 0x02020 [0x34, 0x12]) }
    (fun t => t.di == 0x0022 && t.ip == 0x0101 && !t.flags.cf && t.flags.pf && !t.flags.af && t.flags.zf &&
      !t.flags.sf && !t.flags.of) = true := by decide

/-- Line 647: PUSH AX. -/
theorem test_push_reg : after [0x50] { base with ss := 0x2000, sp := 0x0100, ax := 0x1234 }
    (fun t => t.sp == 0x00FE && t.ip == 0x0101 && t.mem.read 0x200FE == 0x34 &&
      t.mem.read 0x200FF == 0x12) = true := by decide

/-- Line 651: PUSH ES. -/
theorem test_push_sreg : after [0x06] { base with ss := 0x2000, sp := 0x0100, es := 0x1111 }
    (fun t => t.sp == 0x00FE && t.ip == 0x0101 && t.mem.read 0x200FE == 0x11 &&
      t.mem.read 0x200FF == 0x11) = true := by decide

/-- Line 655: PUSH WORD [BX] (FF /6). -/
theorem test_push_rm : after [0xFF, 0x37]
      { base with ss := 0x2000, sp := 0x0100, bx := 0x0010, ds := 0x0100, mem := (Memory.writeBytes [] 0x01010 [0xCD, 0xAB]) }
    (fun t => t.sp == 0x00FE && t.ip == 0x0102 && t.mem.read 0x200FE == 0xCD &&
      t.mem.read 0x200FF == 0xAB) = true := by decide

/-- Line 657: POP BX. -/
theorem test_pop_reg : after [0x5B]
      { base with ss := 0x2000, sp := 0x0100, mem := (Memory.writeBytes [] 0x20100 [0x34, 0x12]) }
    (fun t => t.bx == 0x1234 && t.sp == 0x0102 && t.ip == 0x0101) = true := by decide

/-- Line 659: POP ES. -/
theorem test_pop_sreg : after [0x07]
      { base with ss := 0x2000, sp := 0x0100, mem := (Memory.writeBytes [] 0x20100 [0x34, 0x12]) }
    (fun t => t.sp == 0x0102 && t.es == 0x1234 && t.ip == 0x0101) = true := by decide

/-- Line 663: POP WORD [BX] (8F /0). -/
theorem test_pop_rm : after [0x8F, 0x07]
      { base with ss := 0x2000, sp := 0x0100, bx := 0x0010, ds := 0x0100, mem := (Memory.writeBytes [] 0x20100 [0x34, 0x12]) }
    (fun t => t.sp == 0x0102 && t.ip == 0x0102 && t.mem.read 0x01010 == 0x34 &&
      t.mem.read 0x01011 == 0x12) = true := by decide

/-- Line 667: PUSHF. -/
theorem test_pushf : after [0x9C]
      { base with ss := 0x2000, sp := 0x0100, flags := { Flags.zero with cf := true, zf := true, ief := true, of := true } }
    (fun t => t.sp == 0x00FE && t.ip == 0x0101 && t.mem.read 0x200FE == 0x41 &&
      t.mem.read 0x200FF == 0x0A) = true := by decide

/-- Line 670: POPF (image 0xFFFF). -/
theorem test_popf : after [0x9D]
      { base with ss := 0x2000, sp := 0x0100, mem := (Memory.writeBytes [] 0x20100 [0xFF, 0xFF]) }
    (fun t => t.sp == 0x0102 && t.ip == 0x0101 && t.flags.cf && t.flags.pf && t.flags.af && t.flags.zf &&
      t.flags.sf && t.flags.of && t.flags.tf && t.flags.ief && t.flags.df) = true := by decide

/-- Line 681: CLC. -/
theorem test_clc : after [0xF8] { base with flags := { Flags.zero with cf := true } }
    (fun t => t.ip == 0x0101 && !t.flags.cf && !t.flags.pf && !t.flags.af && !t.flags.zf && !t.flags.sf &&
      !t.flags.of) = true := by decide

/-- Line 683: STC. -/
theorem test_stc : after [0xF9] base
    (fun t => t.ip == 0x0101 && t.flags.cf && !t.flags.pf && !t.flags.af && !t.flags.zf && !t.flags.sf &&
      !t.flags.of) = true := by decide

/-- Line 686: CLI. -/
theorem test_cli : after [0xFA] { base with flags := { Flags.zero with ief := true } }
    (fun t => t.ip == 0x0101 && !t.flags.cf && !t.flags.pf && !t.flags.af && !t.flags.zf && !t.flags.sf &&
      !t.flags.of && !t.flags.ief) = true := by decide

/-- Line 687: STI. -/
theorem test_sti : after [0xFB] base
    (fun t => t.ip == 0x0101 && !t.flags.cf && !t.flags.pf && !t.flags.af && !t.flags.zf && !t.flags.sf &&
      !t.flags.of && t.flags.ief) = true := by decide

/-- Line 688: CLD. -/
theorem test_cld : after [0xFC] { base with flags := { Flags.zero with df := true } }
    (fun t => t.ip == 0x0101 && !t.flags.cf && !t.flags.pf && !t.flags.af && !t.flags.zf && !t.flags.sf &&
      !t.flags.of && !t.flags.df) = true := by decide

/-- Line 689: STD. -/
theorem test_std : after [0xFD] base
    (fun t => t.ip == 0x0101 && !t.flags.cf && !t.flags.pf && !t.flags.af && !t.flags.zf && !t.flags.sf &&
      !t.flags.of && t.flags.df) = true := by decide

/-- Line 684: CMC. -/
theorem test_cmc : after [0xF5] { base with flags := { Flags.zero with cf := true } }
    (fun t => t.ip == 0x0101 && !t.flags.cf && !t.flags.pf && !t.flags.af && !t.flags.zf && !t.flags.sf &&
      !t.flags.of) = true := by decide

/-- Line 690: LAHF (OF, DF not in the low byte). -/
theorem test_lahf : after [0x9F]
      { base with ax := 0x0012, flags := { Flags.zero with cf := true, pf := true, af := true, zf := true, sf := true, df := true, of := true } }
    (fun t => t.ax == 0xD512 && t.ip == 0x0101 && t.flags.cf && t.flags.pf && t.flags.af && t.flags.zf &&
      t.flags.sf && t.flags.of) = true := by decide

/-- Line 692: SAHF (AH = 0xFF; OF kept). -/
theorem test_sahf : after [0x9E] { base with ax := 0xFF00, flags := { Flags.zero with of := true } }
    (fun t => t.ip == 0x0101 && t.flags.cf && t.flags.pf && t.flags.af && t.flags.zf && t.flags.sf &&
      t.flags.of) = true := by decide

/-- Line 714: IN AL, 0x60. -/
theorem test_in_imm : after [0xE4, 0x60] base
    (fun t => t.ip == 0x0100 && faultedWith t .unimplementedOpcode (some .stub)) = true := by decide

/-- Line 716: IN AL, DX. -/
theorem test_in_dx : after [0xEC] base
    (fun t => t.ip == 0x0100 && faultedWith t .unimplementedOpcode (some .stub)) = true := by decide

/-- Line 718: OUT 0x60, AL. -/
theorem test_out_imm : after [0xE6, 0x60] base
    (fun t => t.ip == 0x0100 && faultedWith t .unimplementedOpcode (some .stub)) = true := by decide

/-- Line 720: OUT DX, AL. -/
theorem test_out_dx : after [0xEE] base
    (fun t => t.ip == 0x0100 && faultedWith t .unimplementedOpcode (some .stub)) = true := by decide

/-- Line 327: ES: (1 pass). -/
theorem test_seg : after [0x26] base
    (fun t => t.ip == 0x0101 && t.segCnt == 1 && t.repCnt == 0 && t.segSel == .es) = true := by decide

/-- Line 329: REPNZ (1 pass). -/
theorem test_repnz : after [0xF2] base
    (fun t => t.ip == 0x0101 && t.segCnt == 0 && t.repCnt == 1 && t.repMode == .repnz) = true := by decide

/-- Line 328: REPZ (1 pass). -/
theorem test_repz : after [0xF3] base
    (fun t => t.ip == 0x0101 && t.segCnt == 0 && t.repCnt == 1 && t.repMode == .repz) = true := by decide

/-- Line 709: INT3. -/
theorem test_int3 : after [0xCC]
      { base with ss := 0x2000, sp := 0x0100, flags := { Flags.zero with ief := true }, mem := (Memory.writeBytes [] 0x0000C [0x11, 0x11, 0x22, 0x22]) }
    (fun t => t.sp == 0x00FA && t.cs == 0x2222 && t.ip == 0x1111 && !t.flags.cf && !t.flags.pf && !t.flags.af &&
      !t.flags.zf && !t.flags.sf && !t.flags.of && !t.flags.ief && t.mem.read 0x200FE == 0x00 && t.mem.read 0x200FF == 0x02 && t.mem.read 0x200FC == 0x00 && t.mem.read 0x200FD == 0x10 && t.mem.read 0x200FA == 0x01 && t.mem.read 0x200FB == 0x01) = true := by decide

/-- Line 706: INT 0x21. -/
theorem test_int : after [0xCD, 0x21]
      { base with ss := 0x2000, sp := 0x0100, flags := { Flags.zero with cf := true, tf := true, ief := true }, mem := (Memory.writeBytes [] 0x00084 [0x78, 0x56, 0x00, 0x30]) }
    (fun t => t.sp == 0x00FA && t.cs == 0x3000 && t.ip == 0x5678 && t.flags.cf && !t.flags.pf && !t.flags.af &&
      !t.flags.zf && !t.flags.sf && !t.flags.of && !t.flags.tf && !t.flags.ief && t.mem.read 0x200FE == 0x01 && t.mem.read 0x200FF == 0x03 && t.mem.read 0x200FC == 0x00 && t.mem.read 0x200FD == 0x10 && t.mem.read 0x200FA == 0x02 && t.mem.read 0x200FB == 0x01) = true := by decide

/-- Line 710: INTO with OF = 1. -/
theorem test_into : after [0xCE]
      { base with ss := 0x2000, sp := 0x0100, flags := { Flags.zero with of := true }, mem := (Memory.writeBytes [] 0x00010 [0x33, 0x33, 0x44, 0x44]) }
    (fun t => t.sp == 0x00FA && t.cs == 0x4444 && t.ip == 0x3333 && t.mem.read 0x200FE == 0x00 &&
      t.mem.read 0x200FF == 0x08 && t.mem.read 0x200FC == 0x00 && t.mem.read 0x200FD == 0x10 &&
      t.mem.read 0x200FA == 0x01 && t.mem.read 0x200FB == 0x01) = true := by decide

/-- Line 713: HLT (IP advanced past it). -/
theorem test_hlt : after [0xF4] base
    (fun t => t.ip == 0x0101 && t.runState == .halted) = true := by decide

/-- Line 662: reserved: 0F (POP CS on the 8086). -/
theorem test_reserved_opcode : after [0x0F] { base with ss := 0x2000, sp := 0x0100 }
    (fun t => t.ip == 0x0100 && faultedWith t .unimplementedOpcode (some .noHandler)) = true := by decide

/-- Line 722: WAIT. -/
theorem test_reserved_wait : after [0x9B] base
    (fun t => t.ip == 0x0100 && faultedWith t .unimplementedOpcode (some .noHandler)) = true := by decide

/-- Line 723: LOCK. -/
theorem test_reserved_lock : after [0xF0, 0x90] base
    (fun t => t.ip == 0x0100 && faultedWith t .unimplementedOpcode (some .noHandler)) = true := by decide

/-- Line 724: ESC (D8 to DF). -/
theorem test_reserved_esc : after [0xD8, 0xC0] base
    (fun t => t.ip == 0x0100 && faultedWith t .unimplementedOpcode (some .noHandler)) = true := by decide

/-- Line 438: reserved: FE /2. -/
theorem test_reserved_member : after [0xFE, 0xD0] base
    (fun t => t.ip == 0x0100 && !t.flags.cf && !t.flags.pf && !t.flags.af && !t.flags.zf && !t.flags.sf &&
      !t.flags.of && faultedWith t .unimplementedOpcode (some .noHandler)) = true := by decide

/-! ### Tables other than T_REF -/

/-- Tables that give every opcode a ModRM byte and name no register in table 4. -/
def oddForms : State :=
  { base with tables := { tRef with reg1Zero := Vector.replicate 256 13, iModSize := Vector.replicate 256 1 } }

/-- By 30_encoding.md R100 and 60_exceptions.md R359: the fault of the resolver comes before the one of the stub IN. -/
theorem test_resolver_before_stub : after [0xE4, 0x00] oddForms
    (fun t => t.ip == 0x0100 && faultedWith t .valueOutOfRange none) = true := by decide

/-- By 30_encoding.md R115: bit 2 of an entry clears CF and OF, also for NOP; R112 counts the ModRM displacement. -/
theorem test_policy_of_nop : after [0x90, 0x40, 0x00]
    { base with
      tables := { tRef with stdFlags := Vector.replicate 256 4, iModSize := Vector.replicate 256 1 }
      flags := { Flags.zero with cf := true, of := true, sf := true } }
    (fun t => !t.flags.cf && !t.flags.of && t.flags.sf && t.ip == 0x0102) = true := by decide

/-- By 30_encoding.md R111: `REL8` is at `B1`, whatever the tables say of a ModRM byte. -/
theorem test_rel8_at_b1 :
    decode { tRef with iModSize := Vector.replicate 256 1 } (Window.ofBytes [0xEB, 0x40, 0x07]) =
      .jmpRel8 ⟨0xEB, some ⟨0, .mem8 0 7⟩⟩ 0x40 := by decide

/-- By 30_encoding.md R119: subfunction 1 of class 12 is the count CL. -/
theorem test_shift_count_by_subfunction :
    decode { tRef with xlatSubfunction := Vector.replicate 256 1 } (Window.ofBytes [0xD0, 0xE0]) =
      .shlCl ⟨0xD0, some ⟨4, .reg 0⟩⟩ := by decide

/-! ### The hypotheses of the statements can be met -/

/-- A state with `hlt` and zeros at CS:IP. -/
def haltNext : State := { base with mem := Memory.writeBytes [] 0x10100 [0xF4] }

theorem witness_DecodeOfEncodeIsTheInstruction : (Instr.addRmReg ⟨0x03, some ⟨7, .mem16 7 0xFFFF⟩⟩).wellFormed = true := by
  decide

theorem witness_LengthFormulaCountsTheBytesRead : isReserved (decode tRef (Window.ofBytes [0xC7, 0x86, 1, 2, 3, 4])) = false ∧
    (Window.ofBytes [0x90, 1]).toBytes.take 1 = (Window.ofBytes [0x90, 2]).toBytes.take 1 := by decide

theorem witness_StepRunsTheDecodedInstruction : haltNext.runState = .running ∧ haltNext.stopRequested = false ∧
    (Instr.hlt ⟨0xF4, none⟩).wellFormed = true ∧ haltNext.tables = tRef ∧
    fetchWindow haltNext = Window.ofBytes (encode (.hlt ⟨0xF4, none⟩) ++ [0]) :=
  ⟨rfl, rfl, rfl, rfl, by decide⟩

theorem witness_TerminalStatesAndStopRequest : ({ base with runState := .halted } : State).runState ≠ .running ∧
    base.runState = .running ∧ ({ base with stopAt := some 0 } : State).stopRequested = true := by decide

theorem witness_EveryStepKeepsTheInvariant : haltNext.inv = true ∧ ∃ t, step haltNext = .next t := ⟨by decide, _, rfl⟩

theorem witness_FaultsArePrecise : base.runState = .running ∧
    after [0x0F] base (fun t => t.runState == .faulted) = true := ⟨rfl, by decide⟩

theorem witness_LatchesLastForOnePass :
    ({ base with segCnt := 1, repCnt := 1 } : State).segCnt ≤ 1 ∧ isPrefix (.nop ⟨0x90, none⟩) = false ∧
    (∃ t, exec (.nop ⟨0x90, none⟩) { base with segCnt := 1, repCnt := 1 } = .next t ∧ t.runState ≠ .faulted) ∧
    (∃ t, exec (.seg ⟨0x26, none⟩ .es) { base with repCnt := 1 } = .next t ∧ t.runState ≠ .faulted) ∧
    (∃ t, exec (.repnz ⟨0xF2, none⟩) { base with segCnt := 1 } = .next t ∧ t.runState ≠ .faulted) ∧
    (∃ t, exec (.repz ⟨0xF3, none⟩) base = .next t ∧ t.runState ≠ .faulted) :=
  ⟨by decide, rfl, ⟨_, rfl, by decide⟩, ⟨_, rfl, by decide⟩, ⟨_, rfl, by decide⟩, ⟨_, rfl, by decide⟩⟩

theorem witness_CanonicalMemoriesAreEqual : Memory.wf [(0, 1), (0x10FFFF, 2)] = true := by decide

theorem witness_ChildRegistersAreViews : (4 : BitVec 3) ≠ 0 ∧ (1 : BitVec 3) ≠ (4 : BitVec 3) &&& 3 := by decide

theorem witness_AddressingForms : base.tables = tRef ∧ (RM.mem 7).wellFormed = true ∧ (RM.direct 0xFFFF).wellFormed = true ∧
    (RM.mem8 6 0x80).wellFormed = true ∧ (RM.mem16 0 0).wellFormed = true ∧ (RM.reg 4).wellFormed = true :=
  ⟨rfl, rfl, rfl, rfl, rfl, rfl⟩

theorem witness_ResetSequence : (∀ a, 0xF0102 ≤ a → a < 0xF112A → Memory.read [] a = imageByte a) ∧ 0xF0129 < 0xF012A ∧
    ∃ i < 20, 0x10FFFF < 0xF0000 + tablePointer (Memory.writeWord [] 0xF0102 0xFFFF) i + tableLength i ∨
      0xF012A < 0xF0000 + tablePointer [] i + tableLength i :=
  ⟨fun _ _ _ => rfl, by decide, 0, by decide, .inr (by decide)⟩

theorem witness_ArithmeticResults : AluOp.cmp ∈ [AluOp.add, .adc, .sub, .sbb, .cmp] ∧ base.tables = tRef ∧
    (aluRmReg .cmp ⟨0x3B, some ⟨7, .reg 7⟩⟩).wellFormed = true ∧ (aluAccImm .add ⟨0x05, none⟩ 0xFFFF).wellFormed = true ∧
    (aluRmImm .sbb ⟨0x83, some ⟨3, .direct 0⟩⟩ 0xFF).wellFormed = true := ⟨by decide, rfl, by decide, by decide, by decide⟩

theorem witness_IncrementResults : base.tables = tRef ∧ (Instr.incReg ⟨0x47, none⟩).wellFormed = true ∧
    (Instr.decReg ⟨0x48, none⟩).wellFormed = true ∧ (Instr.incRm ⟨0xFE, some ⟨0, .reg 7⟩⟩).wellFormed = true ∧
    (Instr.decRm ⟨0xFF, some ⟨1, .direct 0⟩⟩).wellFormed = true := ⟨rfl, by decide, by decide, by decide, by decide⟩

theorem witness_NegationResults : base.tables = tRef ∧ (Instr.neg ⟨0xF6, some ⟨3, .reg 7⟩⟩).wellFormed = true ∧
    (Instr.not ⟨0xF7, some ⟨2, .reg 7⟩⟩).wellFormed = true := ⟨rfl, by decide, by decide⟩

theorem witness_MultiplyResults : base.tables = tRef ∧ (Instr.mul ⟨0xF6, some ⟨4, .reg 7⟩⟩).wellFormed = true ∧
    (Instr.mul ⟨0xF7, some ⟨4, .reg 7⟩⟩).wellFormed = true ∧ (Instr.imul ⟨0xF6, some ⟨5, .reg 7⟩⟩).wellFormed = true ∧
    (Instr.imul ⟨0xF7, some ⟨5, .reg 7⟩⟩).wellFormed = true := ⟨rfl, by decide, by decide, by decide, by decide⟩

/-- DX:AX = 0x00FF:FFFF and BX = 0x0100: the greatest dividend of this divisor. -/
def divisible : State := { base with ax := 0xFFFF, dx := 0x00FF, bx := 0x0100 }

theorem witness_DivideResults : divisible.tables = tRef ∧ (Instr.div ⟨0xF6, some ⟨6, .reg 3⟩⟩).wellFormed = true ∧
    (Instr.div ⟨0xF7, some ⟨6, .reg 3⟩⟩).wellFormed = true ∧
    ({ base with ax := 0xFEFF, bx := 0x00FF } : State).ax.toNat <
      256 * State.readOp { base with ax := 0xFEFF, bx := 0x00FF } .byte (operand { base with bx := 0x00FF } (.reg 3)) ∧
    divisible.dx.toNat * 65536 + divisible.ax.toNat < 65536 * divisible.readOp .word (operand divisible (.reg 3)) :=
  ⟨rfl, by decide, by decide, by decide, by decide⟩

theorem witness_SignedDivideResults : base.tables = tRef ∧ (Instr.idiv ⟨0xF6, some ⟨7, .reg 3⟩⟩).wellFormed = true ∧
    (Instr.idiv ⟨0xF7, some ⟨7, .reg 3⟩⟩).wellFormed = true ∧
    (0xFF01 : Word).toInt.natAbs < 128 *
      (BitVec.ofNat 8 (State.readOp { base with bx := 2 } .byte (operand { base with bx := 2 } (.reg 3)))).toInt.natAbs ∧
    ((0xFFFF : Word) ++ (0x0001 : Word) : BitVec 32).toInt.natAbs < 32768 *
      (BitVec.ofNat 16 (State.readOp { base with bx := 2 } .word (operand { base with bx := 2 } (.reg 3)))).toInt.natAbs :=
  ⟨rfl, by decide, by decide, by decide, by decide⟩

theorem witness_DivisionFaults : base.tables = tRef ∧ (Instr.div ⟨0xF6, some ⟨6, .reg 3⟩⟩).wellFormed = true ∧
    2 ^ Width.bits .byte * State.readOp base .byte (operand base (.reg 3)) ≤ base.ax.toNat ∧
    (Instr.idiv ⟨0xF7, some ⟨7, .reg 3⟩⟩).wellFormed = true ∧
    2 ^ (Width.bits .word - 1) * (signedOf .word (State.readOp { base with bx := 1 } .word
      (operand { base with bx := 1 } (.reg 3)))).natAbs ≤ ((0xFFFF : Word) ++ (0x8000 : Word) : BitVec 32).toInt.natAbs :=
  ⟨rfl, by decide, by decide, by decide, by decide⟩

theorem witness_DecimalAdjustResults : base.tables = tRef := rfl

theorem witness_DaaMakesADecimalSum : base.tables = tRef ∧ isPacked ({ base with ax := 0x99 } : State).al ∧ isPacked 0x99 ∧
    ∃ t, exec (.addAccImm ⟨0x04, none⟩ ((0x99 : Byte).setWidth 16)) { base with ax := 0x99 } = .next t ∧
      ∃ u, exec (.daa ⟨0x27, none⟩) t = .next u :=
  ⟨rfl, by unfold isPacked; decide, by unfold isPacked; decide, _, rfl, _, rfl⟩

theorem witness_AsciiAdjustResults : base.tables = tRef ∧ (0x01 : Byte) ≠ 0 := ⟨rfl, by decide⟩

theorem witness_BitwiseResults : base.tables = tRef ∧ AluOp.xor ∈ [AluOp.and, .or, .xor] ∧
    (aluRmReg .xor ⟨0x33, some ⟨7, .reg 7⟩⟩).wellFormed = true ∧ (aluAccImm .or ⟨0x0C, none⟩ 0xFF).wellFormed = true ∧
    (aluRmImm .and ⟨0x81, some ⟨4, .direct 0⟩⟩ 0xFFFF).wellFormed = true ∧
    (Instr.testRmReg ⟨0x85, some ⟨7, .reg 7⟩⟩).wellFormed = true ∧ (Instr.testAccImm ⟨0xA8, none⟩ 0xFF).wellFormed = true ∧
    (Instr.testRmImm ⟨0xF7, some ⟨0, .reg 0⟩⟩ 0xFFFF).wellFormed = true :=
  ⟨rfl, by decide, by decide, by decide, by decide, by decide, by decide, by decide⟩

theorem witness_ShiftResults : base.tables = tRef ∧ (shiftInstr .sar true ⟨0xD3, some ⟨7, .reg 7⟩⟩).wellFormed = true ∧
    base.cl.toNat = 0 ∧ ({ base with cx := 0xFF } : State).cl.toNat ≠ 0 ∧
    (shiftInstr .rol false ⟨0xD0, some ⟨0, .direct 0⟩⟩).wellFormed = true ∧
    (shiftInstr .rcl true ⟨0xD2, some ⟨2, .reg 0⟩⟩).wellFormed = true ∧
    [8, 9, 16, 17].all (fun n => ({ base with cx := BitVec.ofNat 16 n } : State).cl.toNat == n) = true :=
  ⟨rfl, by decide, by decide, by decide, by decide, by decide, by decide⟩

theorem witness_MovResults : base.tables = tRef ∧ (Instr.movRmReg ⟨0x8B, some ⟨7, .reg 7⟩⟩).wellFormed = true ∧
    (Instr.movRegImm ⟨0xBF, none⟩ 0xFFFF).wellFormed = true ∧ (Instr.movRegImm ⟨0xB0, none⟩ 0xFF).wellFormed = true ∧
    (Instr.movRmImm ⟨0xC6, some ⟨0, .reg 7⟩⟩ 0xFF).wellFormed = true := ⟨rfl, by decide, by decide, by decide, by decide⟩

theorem witness_MovSegmentAndExchangeResults : base.tables = tRef ∧ (Instr.movMoffs ⟨0xA3, none⟩ 0xFFFF).wellFormed = true ∧
    (Instr.movRmSreg ⟨0x8C, some ⟨3, .reg 7⟩⟩).wellFormed = true ∧ (Instr.movSregRm ⟨0x8E, some ⟨1, .reg 0⟩⟩).wellFormed = true ∧
    (Instr.xchgRmReg ⟨0x86, some ⟨4, .reg 0⟩⟩).wellFormed = true ∧ (Instr.xchgAx ⟨0x97, none⟩).wellFormed = true :=
  ⟨rfl, by decide, by decide, by decide, by decide, by decide⟩

theorem witness_AddressLoadResults : base.tables = tRef ∧ (RM.mem8 6 0xFF).wellFormed = true ∧
    (∃ ea a, operand base (.mem8 6 0xFF) = .mem ea a) ∧ (ModRM.mk 0 (.reg 7)).ea = .reg 7 := ⟨rfl, rfl, ⟨_, _, rfl⟩, rfl⟩

theorem witness_XlatLoadsTheTableByte : base.tables = tRef ∧ (Window.ofBytes [0xD7]).b0 = 0xD7 := ⟨rfl, rfl⟩

theorem witness_SignExtensionResults : base.tables = tRef ∧ (Window.ofBytes [0x98]).b0 = 0x98 ∧
    (Window.ofBytes [0x99]).b0 = 0x99 := ⟨rfl, rfl, rfl⟩

theorem witness_ConditionalJumps : 15 < 16 ∧ base.tables = tRef := ⟨by decide, rfl⟩

theorem witness_DirectJumps : base.tables = tRef ∧ (Window.ofBytes [0xEB]).b0 = 0xEB ∧ (Window.ofBytes [0xE9]).b0 = 0xE9 ∧
    (Window.ofBytes [0xEA]).b0 = 0xEA := ⟨rfl, rfl, rfl, rfl⟩

theorem witness_IndirectJumps : base.tables = tRef ∧ (Instr.jmpRm ⟨0xFF, some ⟨4, .reg 7⟩⟩).wellFormed = true ∧
    (Instr.jmpFarRm ⟨0xFF, some ⟨5, .mem 7⟩⟩).wellFormed = true ∧ (Instr.jmpFarRm ⟨0xFF, some ⟨5, .reg 0⟩⟩).wellFormed = true :=
  ⟨rfl, by decide, by decide, by decide⟩

theorem witness_Calls : base.tables = tRef ∧ (Instr.callRm ⟨0xFF, some ⟨2, .reg 7⟩⟩).wellFormed = true ∧
    (Instr.callFarRm ⟨0xFF, some ⟨3, .mem 7⟩⟩).wellFormed = true ∧ (Instr.callFarRm ⟨0xFF, some ⟨3, .reg 0⟩⟩).wellFormed = true :=
  ⟨rfl, by decide, by decide, by decide⟩

theorem witness_Returns : base.tables = tRef ∧ (Window.ofBytes [0xC3]).b0 = 0xC3 ∧ (Window.ofBytes [0xC2]).b0 = 0xC2 ∧
    (Window.ofBytes [0xCB]).b0 = 0xCB ∧ (Window.ofBytes [0xCA]).b0 = 0xCA ∧ (Window.ofBytes [0xCF]).b0 = 0xCF :=
  ⟨rfl, rfl, rfl, rfl, rfl, rfl⟩

theorem witness_LoopInstructions : base.tables = tRef ∧ (Window.ofBytes [0xE2]).b0 = 0xE2 ∧
    (Window.ofBytes [0xE1]).b0 = 0xE1 ∧ (Window.ofBytes [0xE0]).b0 = 0xE0 ∧ (Window.ofBytes [0xE3]).b0 = 0xE3 :=
  ⟨rfl, rfl, rfl, rfl, rfl⟩

theorem witness_StringMoves : base.tables = tRef ∧ (Instr.movs ⟨0xA5, none⟩).wellFormed = true ∧
    (Instr.stos ⟨0xAA, none⟩).wellFormed = true ∧ (Instr.lods ⟨0xAD, none⟩).wellFormed = true :=
  ⟨rfl, by decide, by decide, by decide⟩

theorem witness_StringComparisons : base.tables = tRef ∧ (Instr.cmps ⟨0xA7, none⟩).wellFormed = true ∧
    (Instr.scas ⟨0xAE, none⟩).wellFormed = true := ⟨rfl, by decide, by decide⟩

theorem witness_Pushes : base.tables = tRef ∧ (Instr.pushReg ⟨0x54, none⟩).wellFormed = true ∧
    (Instr.pushSreg ⟨0x1E, none⟩ .ds).wellFormed = true ∧ (Instr.pushRm ⟨0xFF, some ⟨6, .reg 4⟩⟩).wellFormed = true :=
  ⟨rfl, by decide, by decide, by decide⟩

theorem witness_Pops : base.tables = tRef ∧ (Instr.popReg ⟨0x5C, none⟩).wellFormed = true ∧
    (Instr.popSreg ⟨0x17, none⟩ .ss).wellFormed = true ∧ (Instr.popRm ⟨0x8F, some ⟨0, .mem 7⟩⟩).wellFormed = true :=
  ⟨rfl, by decide, by decide, by decide⟩

theorem witness_SoftwareInterrupts : base.tables = tRef := rfl

theorem witness_IretUndoesADelivery : base.tables = tRef ∧
    ∃ t, exec (.iret ⟨0xCF, none⟩) (base.deliver 0xFF 0xFFFF) = .next t := ⟨rfl, _, rfl⟩

theorem witness_FlagInstructions : base.tables = tRef ∧ (Window.ofBytes [0xF8]).b0 = 0xF8 ∧
    (Window.ofBytes [0xF9]).b0 = 0xF9 ∧ (Window.ofBytes [0xFA]).b0 = 0xFA ∧ (Window.ofBytes [0xFB]).b0 = 0xFB ∧
    (Window.ofBytes [0xFC]).b0 = 0xFC ∧ (Window.ofBytes [0xFD]).b0 = 0xFD ∧ (Window.ofBytes [0xF5]).b0 = 0xF5 ∧
    (Window.ofBytes [0x9F]).b0 = 0x9F ∧ (Window.ofBytes [0x9E]).b0 = 0x9E :=
  ⟨rfl, rfl, rfl, rfl, rfl, rfl, rfl, rfl, rfl, rfl⟩

theorem witness_PrefixesSetTheirLatch : base.tables = tRef ∧ (Instr.seg ⟨0x3E, none⟩ .ds).wellFormed = true :=
  ⟨rfl, by decide⟩

theorem witness_HltHaltsForGood : base.tables = tRef := rfl

theorem witness_StubsAndReservedEncodingsFault : base.tables = tRef ∧ (Instr.inImm ⟨0xE5, none⟩ 0xFF).wellFormed = true ∧
    (Instr.outDx ⟨0xEE, none⟩).wellFormed = true ∧ (Instr.reservedOpcode ⟨0x6F, none⟩).wellFormed = true ∧
    (Instr.reservedEsc ⟨0xDF, none⟩).wellFormed = true ∧ (Instr.reservedMember ⟨0xFF, some ⟨7, .mem 7⟩⟩).wellFormed = true :=
  ⟨rfl, by decide, by decide, by decide, by decide, by decide⟩

theorem witness_GeneralRegistersKept : ∃ t, exec (.incReg ⟨0x40, none⟩) base = .next t ∧
    writesReg (.incReg ⟨0x40, none⟩) base 1 = false := ⟨_, rfl, by decide⟩

theorem witness_SegmentRegistersKept : ∃ t, exec (.popSreg ⟨0x07, none⟩ .es) base = .next t ∧
    writesSreg (.popSreg ⟨0x07, none⟩ .es) .ds = false := ⟨_, rfl, by decide⟩

theorem witness_FlagsKept : base.tables = tRef ∧ (Instr.incReg ⟨0x40, none⟩).wellFormed = true ∧
    (∃ t, exec (.incReg ⟨0x40, none⟩) base = .next t) ∧ writesFlag (.incReg ⟨0x40, none⟩) 0 = false :=
  ⟨rfl, by decide, ⟨_, rfl⟩, by decide⟩

theorem witness_EngineStateKept : base.runState = .running ∧
    (∃ t, exec (.inDx ⟨0xEC, none⟩) base = .next t ∧ t.runState = .faulted) ∧
    (∃ t, exec (.hlt ⟨0xF4, none⟩) base = .next t ∧ t.runState ≠ .faulted ∧ t.runState ≠ .running) :=
  ⟨rfl, ⟨_, rfl, by decide⟩, ⟨_, rfl, by decide, by decide⟩⟩

theorem witness_OperandStoresKeepOtherBytes : base.tables = tRef ∧ (Instr.movMoffs ⟨0xA3, none⟩ 0xFFFF).wellFormed = true ∧
    (∃ t, exec (.movMoffs ⟨0xA3, none⟩ 0xFFFF) base = .next t) ∧ pushCount (.movMoffs ⟨0xA3, none⟩ 0xFFFF) base = 0 ∧
    elementStores (.movMoffs ⟨0xA3, none⟩ 0xFFFF) base = 0 ∧
    operandStore (.movMoffs ⟨0xA3, none⟩ 0xFFFF) base = some (0xFFFF, .word) ∧ (0xFFFF + Width.bytes .word ≤ 0x10001) :=
  ⟨rfl, by decide, ⟨_, rfl⟩, rfl, rfl, by decide, by decide⟩

theorem witness_PushesKeepOtherBytes : base.tables = tRef ∧ (Instr.int3 ⟨0xCC, none⟩).wellFormed = true ∧
    (∃ t, exec (.int3 ⟨0xCC, none⟩) base = .next t) ∧ 0 < pushCount (.int3 ⟨0xCC, none⟩) base ∧
    ∀ k, 1 ≤ k → k ≤ 3 → (0x10000 : Nat) ≠ base.ss.toNat * 16 + (base.sp - BitVec.ofNat 16 (2 * k)).toNat ∧
      (0x10000 : Nat) ≠ base.ss.toNat * 16 + (base.sp - BitVec.ofNat 16 (2 * k)).toNat + 1 :=
  ⟨rfl, by decide, ⟨_, rfl⟩, by decide, by
    intro k h1 h2
    have : k = 1 ∨ k = 2 ∨ k = 3 := by omega
    rcases this with rfl | rfl | rfl <;> decide⟩

theorem witness_StringStoresKeepOtherBytes : base.tables = tRef ∧ (Instr.stos ⟨0xAA, none⟩).wellFormed = true ∧
    (∃ t, exec (.stos ⟨0xAA, none⟩) base = .next t) ∧ elementStores (.stos ⟨0xAA, none⟩) base = 1 ∧
    (destAt base (Width.ofBit ((0xAA : Byte).getLsbD 0)) 0 + (Width.ofBit ((0xAA : Byte).getLsbD 0)).bytes ≤ 1) :=
  ⟨rfl, by decide, ⟨_, rfl⟩, by decide, by decide⟩

theorem witness_ResolverFaultsFirst : (Instr.inImm ⟨0xE4, some ⟨0, .mem 0⟩⟩ 0).head.modrm = some ⟨0, .mem 0⟩ ∧
    foundInStep2 (.inImm ⟨0xE4, some ⟨0, .mem 0⟩⟩ 0) = false ∧
    formEntries oddForms.tables (.mem 0) = some ⟨13, 6, 0, 11⟩ ∧
    formEntries { tRef with multDisp := Vector.replicate 256 2 } (.mem8 0 0) = some ⟨3, 6, 2, 11⟩ ∧
    formEntries { tRef with segZero := Vector.replicate 256 13 } (.direct 0) = some ⟨12, 12, 1, 13⟩ ∧
    base.segCnt = 0 := ⟨rfl, rfl, by decide, by decide, by decide, rfl⟩

end Sys2Proof.Tests
end

section
/-! The registers as views, the flags word, the state after reset, and the steps of a terminal state
(10_state.md R22 to R46). -/

namespace Sys2Proof.Machine

/-! ### Terminal states and reset -/

/-- Settles O6, by the two branches of a step that run no pass. -/
theorem terminalStatesAndStopRequest : Obligations.TerminalStatesAndStopRequest :=
  fun _ => ⟨step_terminal, step_stop⟩

/-- Settles O8: the memory of reset lists no cell, its latch counters are 0, and it is RUNNING without a record. -/
theorem invariantHoldsAtReset : Obligations.InvariantHoldsAtReset := by
  unfold Obligations.InvariantHoldsAtReset State.inv
  rw [show State.reset.mem.wf = true from Memory.wf_nil]
  rfl

/-- All general registers are 0 at reset (10_state.md R46 with the spec's decision D5). -/
theorem reg16_reset (n : BitVec 3) : State.reset.reg16 n = 0 := by
  unfold State.reg16; split <;> rfl

/-- Settles O18: every field by its value in `State.reset`, the general registers by `reg16_reset`. -/
theorem resetValues : Obligations.ResetValues :=
  ⟨rfl, rfl, reg16_reset, rfl, rfl, rfl, by decide, rfl, rfl, rfl, rfl, rfl, rfl, rfl⟩

/-! ### Byte registers -/

/-- A byte register's number is 4 or more exactly for a high half (10_state.md R26). -/
theorem byteIsHigh_eq_false_iff : ∀ n : BitVec 3, byteIsHigh n = false ↔ n.toNat < 4 := by decide

/-- A byte register is named by its parent and its half (10_state.md R26). -/
theorem byteReg_ext : ∀ {k n : BitVec 3}, byteParent k = byteParent n → byteIsHigh k = byteIsHigh n → k = n := by
  decide

theorem State.reg8_setReg8_self (s : State) (n : BitVec 3) (b : Byte) : (s.setReg8 n b).reg8 n = b := by
  cases hn : byteIsHigh n <;> simp [State.reg8, State.setReg8, hn]

/-- A write of a byte register keeps every other one: another parent is not written, and of the same parent the other
half is kept (10_state.md R25). -/
theorem State.reg8_setReg8_of_ne (s : State) {n k : BitVec 3} (h : k ≠ n) (b : Byte) :
    (s.setReg8 n b).reg8 k = s.reg8 k := by
  by_cases hp : byteParent k = byteParent n
  · have hh : byteIsHigh k ≠ byteIsHigh n := fun hh => h (byteReg_ext hp hh)
    cases hk : byteIsHigh k <;> cases hn : byteIsHigh n <;> simp [State.reg8, State.setReg8, hp, hk, hn] at hh ⊢
  · simp only [State.reg8, State.reg16_setReg8_of_ne s hp]

/-- Settles O15, from reading a byte register after a write to the same and to another one. -/
theorem childRegistersAreViews : Obligations.ChildRegistersAreViews := by
  intro s n k b
  refine ⟨?_, s.reg8_setReg8_self n b, fun h => s.reg8_setReg8_of_ne h b, fun h => s.reg16_setReg8_of_ne h b⟩
  cases hn : byteIsHigh n with
  | false =>
    have hlt := (byteIsHigh_eq_false_iff n).mp hn
    simp [State.reg8, hn, hlt, byteParent, loByte]
  | true =>
    have hlt : ¬ n.toNat < 4 := fun hc => by simp [(byteIsHigh_eq_false_iff n).mpr hc] at hn
    simp [State.reg8, hn, hlt, byteParent, hiByte]

/-! ### The flags word -/

/-- Bit `i` of the flags word is cell `i` (10_state.md R33). -/
theorem Flags.word_getLsbD (f : Flags) {i : Nat} (h : i < 16) : f.word.getLsbD i = f.cell i := by
  unfold Flags.word mkWord Flags.lowByte Flags.highByte
  simp only [BitVec.getLsbD_append]
  interval_cases i <;> simp [Flags.cell]

/-- The flags word as the sum of its cells (10_state.md R33). -/
theorem Flags.word_eq_or (f : Flags) :
    f.word = (BitVec.ofBool f.cf).setWidth 16 ||| (BitVec.ofBool f.pf).setWidth 16 <<< 2 |||
      (BitVec.ofBool f.af).setWidth 16 <<< 4 ||| (BitVec.ofBool f.zf).setWidth 16 <<< 6 |||
      (BitVec.ofBool f.sf).setWidth 16 <<< 7 ||| (BitVec.ofBool f.tf).setWidth 16 <<< 8 |||
      (BitVec.ofBool f.ief).setWidth 16 <<< 9 ||| (BitVec.ofBool f.df).setWidth 16 <<< 10 |||
      (BitVec.ofBool f.of).setWidth 16 <<< 11 := by
  refine BitVec.eq_of_getLsbD_eq fun i hi => ?_
  rw [f.word_getLsbD hi]
  interval_cases i <;> simp [Flags.cell]

/-- A named cell of a loaded word is its bit (10_state.md R33). -/
theorem Flags.cell_ofWord (v : Word) {i : Nat} (h : i ∈ [0, 2, 4, 6, 7, 8, 9, 10, 11]) :
    (Flags.ofWord v).cell i = v.getLsbD i := by
  simp only [List.mem_cons, List.not_mem_nil, or_false] at h
  rcases h with rfl | rfl | rfl | rfl | rfl | rfl | rfl | rfl | rfl <;> rfl

/-- Loading and storing a word clears its unnamed bits (10_state.md R33). -/
theorem Flags.word_ofWord (v : Word) : (Flags.ofWord v).word = v &&& 0x0FD5 := by
  refine BitVec.eq_of_getLsbD_eq fun i hi => ?_
  rw [Flags.word_getLsbD _ hi, BitVec.getLsbD_and]
  interval_cases i <;> simp [Flags.cell, Flags.ofWord]

theorem Flags.ofWord_word (f : Flags) : Flags.ofWord f.word = f := by
  unfold Flags.ofWord
  simp only [Flags.word_getLsbD, Nat.reduceLT, Flags.cell]

/-- Settles O16, bit by bit. -/
theorem flagsWordLayout : Obligations.FlagsWordLayout := fun f v =>
  ⟨fun _ hi => f.word_getLsbD hi, f.word_eq_or, fun _ hi => Flags.cell_ofWord v hi, Flags.word_ofWord v, f.ofWord_word⟩

end Sys2Proof.Machine
end

section
/-! The latch counters over a pass (10_state.md R38, R39; 30_encoding.md R116). -/

namespace Sys2Proof.Machine

/-- A pass that does not fault is the end of a pass, for a state its handler left, with IP advanced or not. -/
theorem finish_endPass {h : Head} {s t : State} {r : Result} (he : finish h s r = .next t)
    (hf : t.runState ≠ .faulted) :
    ∃ u ip, (r = .done u ∨ r = .jump u) ∧ t = State.endPass { u with ip := ip } := by
  cases r with
  | done u => cases he; exact ⟨u, s.nextIp h, .inl rfl, rfl⟩
  | jump u => cases he; exact ⟨u, u.ip, .inr rfl, rfl⟩
  | raise k q v => cases he; exact absurd rfl hf

/-- A handler that leaves `u` and the flag policy to the table: the pass ends in `u`, but for IP and the flags, unless
the resolver faults. -/
theorem runTable_done_endPass {h : Head} {s t u : State} (he : runTable h s (.done u) = .next t)
    (hf : t.runState ≠ .faulted) : ∃ ip f, t = State.endPass { u with ip := ip, flags := f } := by
  rcases run_cases h s (tablePolicy h s (.done u)) with ⟨hr, -⟩ | ⟨hr, -⟩
  · obtain ⟨_, _, hu, -⟩ := finish_endPass (hr.symm.trans he) hf
    rcases hu with hu | hu <;> cases hu
  · obtain ⟨_, ip, hu, rfl⟩ := finish_endPass (hr.symm.trans he) hf
    rcases hu with hu | hu <;> cases hu
    exact ⟨ip, _, rfl⟩

/-- The two latches of `t` are those of `s` with their counters fallen by 1 (30_encoding.md R116). -/
def LatchesFell (s t : State) : Prop :=
  t.segCnt = s.segCnt - 1 ∧ t.repCnt = s.repCnt - 1 ∧ t.segSel = s.segSel ∧ t.repMode = s.repMode

theorem Keeps.latchesFell {s u : State} (h : Keeps s u) (ip : Word) :
    LatchesFell s (State.endPass { u with ip := ip }) :=
  ⟨congrArg (· - 1) h.segCnt, congrArg (· - 1) h.repCnt, h.segSel, h.repMode⟩

/-- Every instruction that sets no latch lets both counters fall (30_encoding.md R116). -/
theorem exec_latchesFell {i : Instr} {s t : State} (hi : Spec.isPrefix i = false) (he : exec i s = .next t)
    (hf : t.runState ≠ .faulted) : LatchesFell s t := by
  cases hw : writesEngine i with
  | false =>
    obtain ⟨r, hr, hk⟩ := exec_ends i s hw
    obtain ⟨u, ip, hu, rfl⟩ := finish_endPass (hr.symm.trans he) hf
    exact (hk u hu).latchesFell ip
  | true =>
    cases i with
    | hlt h =>
      obtain ⟨ip, f, rfl⟩ := runTable_done_endPass he hf
      exact ⟨rfl, rfl, rfl, rfl⟩
    | seg h r => cases hi
    | repnz h => cases hi
    | repz h => cases hi
    | _ => cases hw

/-- A counter of 0 or 1 that is kept alive over a pass is the same after it (47_io_prefix_int_halt.md R322). -/
theorem keepAlive_sub_one {n : Nat} (h : n ≤ 1) : keepAlive n - 1 = n := by
  unfold keepAlive; split <;> omega

/-- A segment override sets its own latch for the next pass and keeps the other (47_io_prefix_int_halt.md R322). -/
theorem execSeg_latches {h : Head} {r : SReg} {s t : State} (hs : s.repCnt ≤ 1) (he : execSeg h r s = .next t)
    (hf : t.runState ≠ .faulted) :
    t.segCnt = 1 ∧ t.segSel = r ∧ t.repCnt = s.repCnt ∧ t.repMode = s.repMode := by
  obtain ⟨ip, f, rfl⟩ := runTable_done_endPass he hf
  exact ⟨rfl, rfl, keepAlive_sub_one hs, rfl⟩

/-- A repeat sets its own latch for the next pass and keeps the other (47_io_prefix_int_halt.md R323, R324). -/
theorem latchRepeat_latches {h : Head} {mode : RepMode} {s t : State} (hs : s.segCnt ≤ 1)
    (he : runTable h s (.done (s.latchRepeat mode)) = .next t) (hf : t.runState ≠ .faulted) :
    t.repCnt = 1 ∧ t.repMode = mode ∧ t.segCnt = s.segCnt ∧ t.segSel = s.segSel := by
  obtain ⟨ip, f, rfl⟩ := runTable_done_endPass he hf
  exact ⟨rfl, rfl, keepAlive_sub_one hs, rfl⟩

/-- Settles O11: both counters fall in every pass; the three instructions that set a latch set its counter to 2 before. -/
theorem latchesLastForOnePass : Obligations.LatchesLastForOnePass := by
  intro i s t hseg hrep he _ hf
  refine ⟨fun hi => ?_, ?_, ?_, ?_⟩
  · obtain ⟨h1, h2, h3, h4⟩ := exec_latchesFell hi he hf
    exact ⟨by omega, by omega, h3, h4⟩
  · rintro h r rfl; exact execSeg_latches hrep he hf
  · rintro h rfl; exact latchRepeat_latches hseg he hf
  · rintro h rfl; exact latchRepeat_latches hseg he hf

end Sys2Proof.Machine
end

section
/-! What a pass keeps of a part of the state, said once for every part that the end of a pass does not write: it is enough
that the handler keeps it. -/

namespace Sys2Proof.Machine

/-- A view of the state that sees nothing of what the end of a pass and a fault write (30_encoding.md R116;
60_exceptions.md R351). -/
structure PassBlind {α : Type} (view : State → α) : Prop where
  ip : ∀ t v, view { t with ip := v } = view t
  endPass : ∀ t, view t.endPass = view t
  raiseFault : ∀ t h k q v, view (t.raiseFault h k q v) = view t

/-- Step 6 of a pass from `s` does not change the view, whatever the handler leaves (30_encoding.md R115). -/
def TablePolicyBlind {α : Type} (view : State → α) (h : Head) (s : State) : Prop :=
  ∀ t, view { t with flags := t.flags.policyUnrecorded s (s.stdPolicy h.op) } = view t

/-- The view of every state the handler leaves is that of `s`. -/
def Result.KeepsView {α : Type} (view : State → α) (s : State) (r : Result) : Prop :=
  ∀ t, r = .done t ∨ r = .jump t → view t = view s

/-- The view of the next state is that of `s`. -/
def KeepsView {α : Type} (view : State → α) (s : State) (o : Host.Outcome State Fault Refusal) : Prop :=
  ∀ t, o = .next t → view t = view s

/-- The resolver gives the `reg` field of the ModRM byte, and the handle of its operand (30_encoding.md R109). -/
theorem resolve_operands {s : State} {h : Head} {o : Operand} {reg : BitVec 3} (hr : s.resolve h = .operands o reg) :
    ∃ m, h.modrm = some m ∧ m.reg = reg ∧ s.resolveRm m.ea = some o := by
  unfold State.resolve at hr
  split at hr
  · cases hr
  · rename_i m hm
    split at hr
    · rename_i ho; cases hr; exact ⟨m, hm, rfl, ho⟩
    · cases hr

section
variable {α : Type} {view : State → α} {h : Head} {s t : State} {r : Result} {f : Operand → BitVec 3 → Result}

theorem Result.keepsView_done (ht : view t = view s) : Result.KeepsView view s (.done t) := by
  intro u hu; rcases hu with hu | hu <;> cases hu; exact ht

theorem Result.keepsView_jump (ht : view t = view s) : Result.KeepsView view s (.jump t) := by
  intro u hu; rcases hu with hu | hu <;> cases hu; exact ht

theorem Result.keepsView_raise (k : FaultKind) (q : Option FaultReason) (v : Option Byte) :
    Result.KeepsView view s (.raise k q v) := by
  intro u hu; rcases hu with hu | hu <;> cases hu

theorem Result.keepsView_withMemory {o : Operand} {g : Word → Nat → Result}
    (hg : ∀ ea a, Result.KeepsView view s (g ea a)) : Result.KeepsView view s (withMemory o g) := by
  cases o with
  | reg n => exact Result.keepsView_raise _ _ _
  | mem ea a => exact hg ea a

theorem Result.keepsView_tablePolicy (hp : TablePolicyBlind view h s) (hr : Result.KeepsView view s r) :
    Result.KeepsView view s (tablePolicy h s r) := by
  cases r with
  | done t => exact Result.keepsView_done ((hp t).trans (hr t (.inl rfl)))
  | jump t => exact Result.keepsView_jump ((hp t).trans (hr t (.inr rfl)))
  | raise k q v => exact Result.keepsView_raise _ _ _

theorem finish_keepsView (hb : PassBlind view) (hr : Result.KeepsView view s r) : KeepsView view s (finish h s r) := by
  intro u hu
  cases r with
  | done t => cases hu; rw [hb.endPass, hb.ip]; exact hr t (.inl rfl)
  | jump t => cases hu; rw [hb.endPass]; exact hr t (.inr rfl)
  | raise k q v => cases hu; exact hb.raiseFault _ _ _ _ _

theorem run_keepsView (hb : PassBlind view) (hr : Result.KeepsView view s r) : KeepsView view s (run h s r) := by
  rcases run_cases h s r with ⟨hk, -⟩ | ⟨hk, -⟩ <;> rw [hk]
  · exact finish_keepsView hb (Result.keepsView_raise _ _ _)
  · exact finish_keepsView hb hr

theorem runRm_keepsView (hb : PassBlind view)
    (hf : ∀ o reg, s.resolve h = .operands o reg → Result.KeepsView view s (f o reg)) :
    KeepsView view s (runRm h s f) := by
  rcases runRm_cases h s f with ⟨k, hk, -⟩ | ⟨o, reg, ho, hk⟩ <;> rw [hk]
  · exact finish_keepsView hb (Result.keepsView_raise _ _ _)
  · exact finish_keepsView hb (hf o reg ho)

theorem runTable_keepsView (hb : PassBlind view) (hp : TablePolicyBlind view h s) (hr : Result.KeepsView view s r) :
    KeepsView view s (runTable h s r) := run_keepsView hb (Result.keepsView_tablePolicy hp hr)

theorem runRmTable_keepsView (hb : PassBlind view) (hp : TablePolicyBlind view h s)
    (hf : ∀ o reg, s.resolve h = .operands o reg → Result.KeepsView view s (f o reg)) :
    KeepsView view s (runRmTable h s f) :=
  runRm_keepsView hb fun o reg ho => Result.keepsView_tablePolicy hp (hf o reg ho)

/-- A jump writes IP only, in the state it is applied to. -/
theorem jumpIf_keepsView (hb : PassBlind view) (ht : view t = view s) (taken : Bool) (rel : Byte) :
    Result.KeepsView view s (t.jumpIf h taken rel) := by
  unfold State.jumpIf
  split
  · exact Result.keepsView_jump ((hb.ip _ _).trans ht)
  · exact Result.keepsView_done ht

theorem condJump_keepsView (hb : PassBlind view) (rel : Byte) : Result.KeepsView view s (s.condJump h rel) := by
  unfold State.condJump
  split
  · exact jumpIf_keepsView hb rfl _ rel
  · exact Result.keepsView_raise _ _ _

theorem loopJump_keepsView (hb : PassBlind view) (hc : ∀ u : State, view u.countDown = view u) (also : Bool)
    (rel : Byte) : Result.KeepsView view s (s.loopJump h also rel) :=
  jumpIf_keepsView hb (hc s) _ rel

/-- A division that does not fault leaves a quotient and a remainder. -/
theorem divide_keepsView (hq : ∀ w q r, view (s.setQuotient w q r) = view s) (w : Width) (v : Nat) :
    Result.KeepsView view s (s.divide w v) := by
  unfold State.divide
  split
  · exact Result.keepsView_raise _ _ _
  · split
    · exact Result.keepsView_raise _ _ _
    · exact Result.keepsView_done (hq _ _ _)

theorem divideSigned_keepsView (hq : ∀ w q r, view (s.setQuotient w q r) = view s) (w : Width) (v : Nat) :
    Result.KeepsView view s (s.divideSigned w v) := by
  unfold State.divideSigned
  simp only
  split
  · exact Result.keepsView_raise _ _ _
  · split
    · exact Result.keepsView_raise _ _ _
    · exact Result.keepsView_done (hq _ _ _)

theorem repeatElements_keepsView {element : State → State} (he : ∀ u, view (element u) = view u)
    (hc : ∀ u : State, view u.countDown = view u) (stop : State → Bool) (n : Nat) (u : State) :
    view (repeatElements element stop n u) = view u := by
  induction n generalizing u with
  | zero => rfl
  | succ n ih =>
    have hu : view (element u).countDown = view u := (hc _).trans (he u)
    unfold repeatElements
    simp only
    split
    · exact hu
    · exact (ih _).trans hu

/-- A string instruction keeps what each element and the count keep (44_string.md R271). -/
theorem runString_keepsView {element : State → State} (he : ∀ u, view (element u) = view u)
    (hc : ∀ u : State, view u.countDown = view u) (stop : State → Bool) (u : State) :
    view (u.runString element stop) = view u := by
  unfold State.runString
  split
  · exact repeatElements_keepsView he hc stop _ u
  · exact he u

end

end Sys2Proof.Machine
end

section
/-! The frame of the segment registers (10_state.md R22): which operations keep them, and O54. -/

namespace Sys2Proof.Machine

section
variable {s t : State} {r q : SReg}

/-- The segment registers see the segment registers only. -/
theorem State.sreg_congr (hes : t.es = s.es) (hcs : t.cs = s.cs) (hss : t.ss = s.ss) (hds : t.ds = s.ds) (r : SReg) :
    t.sreg r = s.sreg r := by cases r <;> assumption

theorem State.sreg_withFlags (f : Flags) : { s with flags := f }.sreg r = s.sreg r :=
  State.sreg_congr rfl rfl rfl rfl r

theorem State.sreg_setReg16 (n : BitVec 3) (v : Word) : (s.setReg16 n v).sreg r = s.sreg r :=
  State.sreg_congr (by simp) (by simp) (by simp) (by simp) r

theorem State.sreg_setReg (w : Width) (n : BitVec 3) (v : Nat) : (s.setReg w n v).sreg r = s.sreg r :=
  State.sreg_congr (by simp) (by simp) (by simp) (by simp) r

theorem State.sreg_writeOp (w : Width) (o : Operand) (v : Nat) : (s.writeOp w o v).sreg r = s.sreg r :=
  State.sreg_congr (by simp) (by simp) (by simp) (by simp) r

theorem State.sreg_push (v : Word) : (s.push v).sreg r = s.sreg r := State.sreg_congr rfl rfl rfl rfl r

theorem State.sreg_drop : s.drop.sreg r = s.sreg r := State.sreg_congr rfl rfl rfl rfl r

theorem State.sreg_setSreg_of_ne (h : r ≠ q) (v : Word) : (s.setSreg q v).sreg r = s.sreg r := by
  simp [State.sreg_setSreg, h]

/-- A far transfer writes no segment register but CS. -/
theorem State.sreg_congr_of_ne_cs (hr : r ≠ .cs) (hes : t.es = s.es) (hss : t.ss = s.ss) (hds : t.ds = s.ds) :
    t.sreg r = s.sreg r := by
  cases r with
  | cs => exact absurd rfl hr
  | es => exact hes
  | ss => exact hss
  | ds => exact hds

theorem State.sreg_alu (op : AluOp) (w : Width) (p : Byte) (o : Operand) (sv : Nat) :
    (s.alu op w p o sv).sreg r = s.sreg r := by
  refine (State.sreg_withFlags _).trans ?_
  split
  · rfl
  · exact State.sreg_writeOp _ _ _

theorem State.sreg_incDec (w : Width) (p : Byte) (o : Operand) (inc : Bool) :
    (s.incDec w p o inc).sreg r = s.sreg r := (State.sreg_withFlags _).trans (State.sreg_writeOp _ _ _)

theorem State.sreg_negate (w : Width) (o : Operand) : (s.negate w o).sreg r = s.sreg r :=
  (State.sreg_withFlags _).trans (State.sreg_writeOp _ _ _)

theorem State.sreg_shift (op : ShiftOp) (w : Width) (o : Operand) (n : Nat) :
    (s.shift op w o n).sreg r = s.sreg r := by
  unfold State.shift
  split
  · rfl
  · exact (State.sreg_withFlags _).trans (State.sreg_writeOp _ _ _)

theorem State.sreg_setProduct (w : Width) (p : Nat) : (s.setProduct w p).sreg r = s.sreg r := by
  cases w <;> exact State.sreg_congr rfl rfl rfl rfl r

theorem State.sreg_setQuotient (w : Width) (a b : Nat) : (s.setQuotient w a b).sreg r = s.sreg r := by
  cases w <;> exact State.sreg_congr rfl rfl rfl rfl r

theorem State.sreg_asciiAdjust (al ah : Byte) : (s.asciiAdjust al ah).sreg r = s.sreg r := by
  unfold State.asciiAdjust
  split <;> exact State.sreg_congr rfl rfl rfl rfl r

theorem State.sreg_movsElement (w : Width) : (s.movsElement w).sreg r = s.sreg r := State.sreg_congr rfl rfl rfl rfl r

theorem State.sreg_stosElement (w : Width) : (s.stosElement w).sreg r = s.sreg r := State.sreg_congr rfl rfl rfl rfl r

theorem State.sreg_cmpsElement (w : Width) : (s.cmpsElement w).sreg r = s.sreg r := State.sreg_congr rfl rfl rfl rfl r

theorem State.sreg_scasElement (w : Width) : (s.scasElement w).sreg r = s.sreg r := State.sreg_congr rfl rfl rfl rfl r

theorem State.sreg_lodsElement (w : Width) : (s.lodsElement w).sreg r = s.sreg r :=
  (State.sreg_congr rfl rfl rfl rfl r).trans (State.sreg_setReg w 0 _)

theorem State.sreg_runString {element : State → State} (he : ∀ u, (element u).sreg r = u.sreg r)
    (stop : State → Bool) : (s.runString element stop).sreg r = s.sreg r :=
  runString_keepsView (view := fun t => t.sreg r) he (fun _ => State.sreg_congr rfl rfl rfl rfl r) stop s

theorem sreg_passBlind (r : SReg) : PassBlind fun t => t.sreg r where
  ip _ _ := State.sreg_congr rfl rfl rfl rfl r
  endPass _ := State.sreg_congr rfl rfl rfl rfl r
  raiseFault _ _ _ _ _ := State.sreg_congr rfl rfl rfl rfl r

theorem sreg_tablePolicyBlind (r : SReg) (h : Head) (s : State) : TablePolicyBlind (fun t => t.sreg r) h s :=
  fun _ => State.sreg_withFlags _

end

section
variable {h : Head} {s t : State} {r : SReg} {res : Result} {f : Operand → BitVec 3 → Result}

theorem run_keepsSreg (hr : t.sreg r = s.sreg r) : KeepsView (fun t => t.sreg r) s (run h s (.done t)) :=
  run_keepsView (sreg_passBlind r) (Result.keepsView_done hr)

theorem runRm_keepsSreg {g : Operand → BitVec 3 → State} (hg : ∀ o reg, (g o reg).sreg r = s.sreg r) :
    KeepsView (fun t => t.sreg r) s (runRm h s fun o reg => .done (g o reg)) :=
  runRm_keepsView (sreg_passBlind r) fun o reg _ => Result.keepsView_done (hg o reg)

theorem runTable_keepsSreg (hr : res.KeepsView (fun t => t.sreg r) s) :
    KeepsView (fun t => t.sreg r) s (runTable h s res) :=
  runTable_keepsView (sreg_passBlind r) (sreg_tablePolicyBlind r h s) hr

theorem runRmTable_keepsSreg (hf : ∀ o reg, s.resolve h = .operands o reg → (f o reg).KeepsView (fun t => t.sreg r) s) :
    KeepsView (fun t => t.sreg r) s (runRmTable h s f) :=
  runRmTable_keepsView (sreg_passBlind r) (sreg_tablePolicyBlind r h s) hf

/-- A transfer that writes CS keeps every other segment register. -/
theorem jump_keepsSreg (hr : (r == .cs) = false) (hes : t.es = s.es) (hss : t.ss = s.ss) (hds : t.ds = s.ds) :
    Result.KeepsView (fun t => t.sreg r) s (.jump t) :=
  Result.keepsView_jump (State.sreg_congr_of_ne_cs (ne_of_beq_false hr) hes hss hds)

end

/-- MOV sreg,r/m16 writes the register its `reg` field names, and no other one (40_data_movement.md R146). -/
theorem execMovSregRm_keepsSreg {h : Head} {s : State} {r : SReg} (hr : Spec.writesSreg (.movSregRm h) r = false) :
    KeepsView (fun t => t.sreg r) s (execMovSregRm h s) :=
  runRmTable_keepsSreg fun _ _ ho => by
    obtain ⟨m, hm, rfl, -⟩ := resolve_operands ho
    simp only [Spec.writesSreg, hm] at hr
    exact Result.keepsView_done (State.sreg_setSreg_of_ne (ne_of_beq_false hr) _)

/-- Every instruction keeps the segment registers that `writesSreg` does not name for it (10_state.md R22). -/
theorem exec_keepsSreg (i : Instr) (s : State) (r : SReg) (hr : Spec.writesSreg i r = false) :
    KeepsView (fun t => t.sreg r) s (exec i s) := by
  cases i with
  | addRmReg h | orRmReg h | adcRmReg h | sbbRmReg h | andRmReg h | subRmReg h | xorRmReg h | cmpRmReg h
  | addRmImm h | orRmImm h | adcRmImm h | sbbRmImm h | andRmImm h | subRmImm h | xorRmImm h | cmpRmImm h =>
    exact runRm_keepsSreg fun _ _ => State.sreg_alu _ _ _ _ _
  | addAccImm h imm | orAccImm h imm | adcAccImm h imm | sbbAccImm h imm | andAccImm h imm | subAccImm h imm
  | xorAccImm h imm | cmpAccImm h imm => exact run_keepsSreg (State.sreg_alu _ _ _ _ _)
  | testRmReg h | testRmImm h imm => exact runRm_keepsSreg fun _ _ => State.sreg_withFlags _
  | testAccImm h imm => exact run_keepsSreg (State.sreg_withFlags _)
  | incRm h | decRm h => exact runRm_keepsSreg fun _ _ => State.sreg_incDec _ _ _ _
  | incReg h | decReg h => exact run_keepsSreg (State.sreg_incDec _ _ _ _)
  | neg h => exact runRm_keepsSreg fun _ _ => State.sreg_negate _ _
  | rolOne h | rolCl h | rorOne h | rorCl h | rclOne h | rclCl h | rcrOne h | rcrCl h | shlOne h | shlCl h | shrOne h
  | shrCl h | sarOne h | sarCl h => exact runRm_keepsSreg fun _ _ => State.sreg_shift _ _ _ _
  | mul h | imul h =>
    exact runRmTable_keepsSreg fun _ _ _ =>
      Result.keepsView_done ((State.sreg_withFlags _).trans (State.sreg_setProduct _ _))
  | div h => exact runRmTable_keepsSreg fun _ _ _ => divide_keepsView (fun _ _ _ => State.sreg_setQuotient _ _ _) _ _
  | idiv h =>
    exact runRmTable_keepsSreg fun _ _ _ => divideSigned_keepsView (fun _ _ _ => State.sreg_setQuotient _ _ _) _ _
  | daa h | das h | aad h imm => exact run_keepsSreg (State.sreg_congr rfl rfl rfl rfl r)
  | aam h imm =>
    refine run_keepsView (sreg_passBlind r) ?_
    split
    · exact Result.keepsView_raise _ _ _
    · exact Result.keepsView_done (State.sreg_congr rfl rfl rfl rfl r)
  | aaa h | aas h => exact runTable_keepsSreg (Result.keepsView_done (State.sreg_asciiAdjust _ _))
  | movRmReg h | movRmImm h imm | movRmSreg h | not h =>
    exact runRmTable_keepsSreg fun _ _ _ => Result.keepsView_done (State.sreg_writeOp _ _ _)
  | movRegImm h imm => exact runTable_keepsSreg (Result.keepsView_done (State.sreg_setReg _ _ _))
  | movMoffs h addr =>
    refine runTable_keepsSreg (Result.keepsView_done ?_)
    split
    · exact State.sreg_congr rfl rfl rfl rfl r
    · exact State.sreg_setReg _ _ _
  | movSregRm h => exact execMovSregRm_keepsSreg hr
  | xchgRmReg h =>
    exact runRmTable_keepsSreg fun _ _ _ =>
      Result.keepsView_done ((State.sreg_setReg _ _ _).trans (State.sreg_writeOp _ _ _))
  | xchgAx h =>
    exact runTable_keepsSreg
      (Result.keepsView_done ((State.sreg_setReg16 _ _).trans (State.sreg_congr rfl rfl rfl rfl r)))
  | lea h =>
    exact runRmTable_keepsSreg fun _ _ _ => Result.keepsView_withMemory fun _ _ =>
      Result.keepsView_done (State.sreg_setReg16 _ _)
  | les h | lds h =>
    exact runRmTable_keepsSreg fun _ _ _ => Result.keepsView_withMemory fun _ _ =>
      Result.keepsView_done ((State.sreg_setSreg_of_ne (ne_of_beq_false hr) _).trans (State.sreg_setReg16 _ _))
  | nop h | xlat h | cbw h | cwd h | lahf h | sahf h | clc h | stc h | cli h | sti h | cld h | std h | cmc h | popf h
  | hlt h | seg h q | repnz h | repz h =>
    exact runTable_keepsSreg (Result.keepsView_done (State.sreg_congr rfl rfl rfl rfl r))
  | jo h rel | jno h rel | jb h rel | jnb h rel | jz h rel | jnz h rel | jbe h rel | jnbe h rel | js h rel | jns h rel
  | jp h rel | jnp h rel | jl h rel | jnl h rel | jle h rel | jnle h rel =>
    exact runTable_keepsSreg (condJump_keepsView (sreg_passBlind r) rel)
  | loopnz h rel | loopz h rel | loop h rel =>
    exact runTable_keepsSreg
      (loopJump_keepsView (sreg_passBlind r) (fun _ => State.sreg_congr rfl rfl rfl rfl r) _ rel)
  | jcxz h rel => exact runTable_keepsSreg (jumpIf_keepsView (sreg_passBlind r) rfl _ rel)
  | jmpRel8 h rel | jmpRel16 h rel | callRel h rel | ret h | retImm h imm =>
    exact runTable_keepsSreg (Result.keepsView_jump (State.sreg_congr rfl rfl rfl rfl r))
  | jmpRm h | callRm h =>
    exact runRmTable_keepsSreg fun _ _ _ => Result.keepsView_jump (State.sreg_congr rfl rfl rfl rfl r)
  | jmpFar h off seg | callFar h off seg | retf h | retfImm h imm | iret h | int3 h =>
    exact runTable_keepsSreg (jump_keepsSreg hr rfl rfl rfl)
  | jmpFarRm h | callFarRm h =>
    exact runRmTable_keepsSreg fun _ _ _ => Result.keepsView_withMemory fun _ _ => jump_keepsSreg hr rfl rfl rfl
  | int h vector =>
    refine runTable_keepsSreg ?_
    split
    · exact Result.keepsView_raise _ _ _
    · exact jump_keepsSreg hr rfl rfl rfl
  | into h =>
    refine runTable_keepsSreg ?_
    split
    · exact jump_keepsSreg hr rfl rfl rfl
    · exact Result.keepsView_done rfl
  | movs h =>
    exact runTable_keepsSreg (Result.keepsView_done (State.sreg_runString (fun _ => State.sreg_movsElement _) _))
  | stos h =>
    exact runTable_keepsSreg (Result.keepsView_done (State.sreg_runString (fun _ => State.sreg_stosElement _) _))
  | lods h =>
    exact runTable_keepsSreg (Result.keepsView_done (State.sreg_runString (fun _ => State.sreg_lodsElement _) _))
  | cmps h => exact run_keepsSreg (State.sreg_runString (fun _ => State.sreg_cmpsElement _) _)
  | scas h => exact run_keepsSreg (State.sreg_runString (fun _ => State.sreg_scasElement _) _)
  | pushReg h =>
    refine runTable_keepsSreg (Result.keepsView_done ?_)
    split <;> exact State.sreg_push _
  | pushRm h =>
    refine runRmTable_keepsSreg fun _ _ _ => Result.keepsView_done ?_
    split <;> exact State.sreg_push _
  | pushSreg h q | pushf h => exact runTable_keepsSreg (Result.keepsView_done (State.sreg_push _))
  | popReg h =>
    exact runTable_keepsSreg (Result.keepsView_done ((State.sreg_setReg16 _ _).trans State.sreg_drop))
  | popSreg h q =>
    exact runTable_keepsSreg
      (Result.keepsView_done ((State.sreg_setSreg_of_ne (ne_of_beq_false hr) _).trans State.sreg_drop))
  | popRm h =>
    exact runRmTable_keepsSreg fun _ _ _ =>
      Result.keepsView_done ((State.sreg_writeOp _ _ _).trans State.sreg_drop)
  | inImm h port | inDx h | outImm h port | outDx h | reservedMember h =>
    exact run_keepsView (sreg_passBlind r) (Result.keepsView_raise _ _ _)
  | reservedOpcode h | reservedWait h | reservedLock h | reservedEsc h =>
    exact finish_keepsView (sreg_passBlind r) (Result.keepsView_raise _ _ _)

/-- Settles O54, instruction by instruction. -/
theorem segmentRegistersKept : Obligations.SegmentRegistersKept :=
  fun i s t r he hr => exec_keepsSreg i s r hr t he

end Sys2Proof.Machine
end

section
/-! The frame of the flag cells (10_state.md R30; 93_implementation_defined.md U1): which cells each flag operation of the
model writes, and what the flag policy of `T_REF` is for the opcode bytes (30_encoding.md R122). -/

namespace Sys2Proof.Machine

/-- Every cell but those of the list is the same in `f` and `g`. -/
def Flags.SameBut (ks : List Nat) (f g : Flags) : Prop := ∀ k, k ∉ ks → g.cell k = f.cell k

namespace Flags.SameBut

variable {ks ls : List Nat} {f g e : Flags}

theorem refl (ks : List Nat) (f : Flags) : SameBut ks f f := fun _ _ => rfl

theorem trans (h : SameBut ks f g) (k : SameBut ks g e) : SameBut ks f e := fun i hi => (k i hi).trans (h i hi)

theorem mono (h : SameBut ks f g) (hs : ks ⊆ ls) : SameBut ls f g := fun k hk => h k fun hc => hk (hs hc)

/-- A policy bit decides whether an operation applies. -/
theorem ite {c : Prop} [Decidable c] (h : SameBut ks f g) : SameBut ks f (if c then g else f) := by
  split
  · exact h
  · exact refl ks f

end Flags.SameBut

/-- A write of one cell keeps every other one (10_state.md R31). -/
theorem Flags.cell_setCell_of_ne (f : Flags) {i k : Nat} (h : k ≠ i) (v : Bool) : (f.setCell i v).cell k = f.cell k := by
  unfold Flags.setCell
  split <;> unfold Flags.cell <;> split <;> (try contradiction) <;> rfl

/-- `f` with the cells of the list taken from `g`. -/
def Flags.withCellsOf (f g : Flags) (ks : List Nat) : Flags := ks.foldl (fun e k => e.setCell k (g.cell k)) f

theorem Flags.sameBut_withCellsOf (f g : Flags) (ks : List Nat) : SameBut ks f (f.withCellsOf g ks) := by
  induction ks generalizing f with
  | nil => exact .refl _ f
  | cons i ks ih =>
    intro k hk
    simp only [List.mem_cons, not_or] at hk
    exact (ih (f.setCell i (g.cell i)) k hk.2).trans (f.cell_setCell_of_ne hk.1 _)

/-- An operation that writes the cells of the list and no other one: `rfl` shows it for a record update. -/
theorem Flags.SameBut.of_writes {ks : List Nat} {f g : Flags} (h : f.withCellsOf g ks = g) : SameBut ks f g :=
  h ▸ f.sameBut_withCellsOf g ks

/-! ### What the policies write (30_encoding.md R115) -/

section
variable (s : State) (T : Tables) (w : Width) (f : Flags)

theorem Flags.sameBut_szp (v : Nat) : SameBut [2, 6, 7] f (f.szp T w v) :=
  .of_writes rfl

theorem Flags.sameBut_arith (t : Triple) : SameBut [4, 11] f (f.arith w t) := .of_writes rfl

theorem Flags.sameBut_logic : SameBut [0, 11] f f.logic := .of_writes rfl

theorem Flags.sameBut_arithUnrecorded : SameBut [4, 11] f (f.arithUnrecorded s) :=
  .of_writes rfl

theorem Flags.sameBut_policy (p : Byte) (t : Triple) : SameBut [0, 2, 4, 6, 7, 11] f (f.policy T w p t) :=
  .trans (.ite ((sameBut_szp T w _ _).mono (by decide)))
    (.trans (.ite ((sameBut_arith w _ _).mono (by decide))) (.ite ((sameBut_logic _).mono (by decide))))

theorem Flags.sameBut_policyResult (p : Byte) (v : Nat) :
    SameBut [0, 2, 4, 6, 7, 11] f (f.policyResult s w p v) :=
  .trans (.ite ((sameBut_szp s.tables w _ _).mono (by decide)))
    (.trans (.ite ((sameBut_arithUnrecorded s _).mono (by decide))) (.ite ((sameBut_logic _).mono (by decide))))

/-- Policy 5, SZP and LOGIC, leaves AF alone (42_logical.md R200). -/
theorem Flags.sameBut_policy_szpLogic (t : Triple) : SameBut [0, 2, 6, 7, 11] f (f.policy T w 5 t) :=
  ((sameBut_szp T w _ _).mono (by decide)).trans ((sameBut_logic (f.szp T w t.result)).mono (by decide))

/-- Policy 1, SZP alone. -/
theorem Flags.sameBut_policy_szp (t : Triple) : SameBut [2, 6, 7] f (f.policy T w 1 t) := sameBut_szp T w _ _

/-! ### What the operations write -/

theorem AluOp.sameBut_flags (op : AluOp) (p : Byte) (dv sv : Nat) :
    f.SameBut [0, 2, 4, 6, 7, 11] (op.flags T w p dv sv f) :=
  .trans (.of_writes (by rfl))
    (.trans (.ite ((Flags.sameBut_arith w _ _).mono (by decide))) (Flags.sameBut_policy T w _ p _))

/-- AND, OR and XOR, whose policy is 5, leave AF alone (42_logical.md R201 to R203). -/
theorem AluOp.sameBut_flags_bitwise {op : AluOp} (h : op ∈ [AluOp.and, .or, .xor]) (dv sv : Nat) :
    f.SameBut [0, 2, 6, 7, 11] (op.flags T w 5 dv sv f) := by
  have hf : op.flags T w 5 dv sv f = f.policy T w 5 (op.triple w dv sv f.cf) := by
    simp only [List.mem_cons, List.not_mem_nil, or_false] at h
    rcases h with rfl | rfl | rfl <;> rfl
  exact hf ▸ Flags.sameBut_policy_szpLogic T w f _

/-- INC and DEC, whose policy is 1, leave CF alone (41_arithmetic.md R176, R177). -/
theorem State.sameBut_incDec (o : Operand) (inc : Bool) :
    s.flags.SameBut [2, 4, 6, 7, 11] (s.incDec w 1 o inc).flags :=
  .trans (.of_writes (by rfl))
    ((Flags.sameBut_policy_szp s.tables w _ _).mono (by decide))

theorem State.sameBut_negate (o : Operand) : s.flags.SameBut [0, 2, 4, 6, 7, 11] (s.negate w o).flags :=
  .trans (.of_writes (by rfl))
    (Flags.sameBut_policy s.tables w _ _ _)

theorem State.sameBut_mulFlags (ovf : Bool) : s.flags.SameBut [0, 2, 4, 6, 7, 11] (s.mulFlags ovf) :=
  .of_writes rfl

theorem State.sameBut_setQuotient (q r : Nat) :
    s.flags.SameBut [0, 2, 4, 6, 7, 11] (s.setQuotient w q r).flags := by
  cases w <;> exact .of_writes rfl

theorem State.sameBut_decimalAdd (p : Byte) : s.flags.SameBut [0, 2, 4, 6, 7, 11] (s.decimalAdd p).flags :=
  .trans (.of_writes (by rfl))
    (Flags.sameBut_policyResult s .byte _ p _)

theorem State.sameBut_decimalSub (p : Byte) : s.flags.SameBut [0, 2, 4, 6, 7, 11] (s.decimalSub p).flags :=
  .trans (.of_writes (by rfl))
    (Flags.sameBut_policyResult s .byte _ p _)

theorem State.sameBut_asciiAdjust (al ah : Byte) :
    s.flags.SameBut [0, 2, 4, 6, 7, 11] (s.asciiAdjust al ah).flags :=
  .of_writes rfl

theorem State.sameBut_setBcd (p al ah : Byte) : s.flags.SameBut [0, 2, 4, 6, 7, 11] (s.setBcd p al ah).flags :=
  .trans (.of_writes (by rfl))
    (Flags.sameBut_policyResult s .byte _ p _)

theorem Flags.sameBut_cf_of (c o : Bool) : f.SameBut [0, 11] { f with cf := c, of := o } := .of_writes rfl

/-- A rotate writes CF and OF (42_logical.md R206). -/
theorem State.sameBut_shiftFlags_rotate {op : ShiftOp} (h : op.isShift = false) (n v0 : Nat) (x : ShiftState) :
    s.flags.SameBut [0, 11] (s.shiftFlags op w n v0 x) := by
  simp only [State.shiftFlags, h, Bool.false_eq_true, if_false]
  split <;> exact s.flags.sameBut_cf_of _ _

/-- A shift or rotate writes status flags only (42_logical.md R206). -/
theorem State.sameBut_shiftFlags (op : ShiftOp) (n v0 : Nat) (x : ShiftState) :
    s.flags.SameBut [0, 2, 4, 6, 7, 11] (s.shiftFlags op w n v0 x) := by
  cases h : op.isShift with
  | false => exact (s.sameBut_shiftFlags_rotate w h n v0 x).mono (by decide)
  | true =>
    simp only [State.shiftFlags, h, if_true]
    refine .trans ?_ (Flags.sameBut_policy s.tables w _ policySZP _)
    split <;> exact .of_writes rfl

/-- A count of 0 changes nothing; any other writes what `shiftFlags` gives (42_logical.md R206). -/
theorem State.sameBut_shift {ks : List Nat} {op : ShiftOp}
    (h : ∀ n v0 x, s.flags.SameBut ks (s.shiftFlags op w n v0 x)) (o : Operand) (n : Nat) :
    s.flags.SameBut ks (s.shift op w o n).flags := by
  unfold State.shift
  split
  · exact .refl _ _
  · exact h _ _ _

theorem Flags.sameBut_loadLow (v : Byte) : f.SameBut [0, 2, 4, 6, 7] (f.loadLow v) := .of_writes rfl

/-- Interrupt delivery clears TF and IF (60_exceptions.md R360). -/
theorem State.sameBut_deliver (vector : Byte) (ret : Word) :
    s.flags.SameBut [8, 9] (s.deliver vector ret).flags := .of_writes rfl

end

end Sys2Proof.Machine
end

section
/-! The frame of the flag cells, instruction by instruction (O55). -/

namespace Sys2Proof.Machine

open Sys2Proof.Laws Sys2Proof.Spec

theorem cell_passBlind (k : Nat) : PassBlind fun t => t.flags.cell k where
  ip _ _ := rfl
  endPass _ := rfl
  raiseFault _ _ _ _ _ := rfl

/-- The policy entry that `T_REF` gives an opcode byte (30_encoding.md R122). -/
theorem stdPolicy_tRef {s : State} (ht : s.tables = tRef) {op : Byte} {n : Nat} (h : flagPolicy op.toNat = n) :
    s.stdPolicy op = BitVec.ofNat 8 n := by
  rw [State.stdPolicy, ht, ← h, ← lookup_stdFlags, BitVec.ofNat_toNat, BitVec.setWidth_eq]

/-- A cell that is not in the list of those an instruction may write. -/
theorem not_mem_of_contains_false {ks : List Nat} {k : Nat} (h : ks.contains k = false) : k ∉ ks := by
  simpa using h

/-- INC and DEC of FE and FF take the entries of 0x10 (30_encoding.md R114). -/
theorem lengthOpcode_incDec {h : Head} (ho : h.opIn 0xFE 0xFF = true) {d : BitVec 3} (hd : h.hasDigit d = true)
    (h01 : d = 0 ∨ d = 1) : Head.lengthOpcode h = 0x10 := by
  have hop : h.op = 0xFE ∨ h.op = 0xFF := by
    simp only [Head.opIn, Bool.and_eq_true, decide_eq_true_eq] at ho
    exact (show h.op.toNat = 0xFE ∨ h.op.toNat = 0xFF by omega).imp eqOp eqOp
  have hdig : h.digit = some 0 ∨ h.digit = some 1 := by
    rw [digit_of hd]
    exact h01.imp (fun h0 => by rw [h0]; rfl) (fun h1 => by rw [h1]; rfl)
  exact if_pos ⟨hop, hdig⟩

theorem flagPolicy_incDec {h : Head} (ho : h.opIn 0xFE 0xFF = true) {d : BitVec 3} (hd : h.hasDigit d = true)
    (h01 : d = 0 ∨ d = 1) : flagPolicy (Head.lengthOpcode h).toNat = 1 := by
  rw [lengthOpcode_incDec ho hd h01]; rfl

section
variable {h : Head} {s t : State} {k : Nat} {r : Result}

theorem cell_congr (ht : t.flags = s.flags) : t.flags.cell k = s.flags.cell k := by rw [ht]

/-- A handler that writes cells of the list only, for a cell outside it. -/
theorem Result.keepsCell_done {ks : List Nat} (ht : s.flags.SameBut ks t.flags) (hk : ks.contains k = false) :
    Result.KeepsView (fun t => t.flags.cell k) s (.done t) :=
  Result.keepsView_done (ht k (not_mem_of_contains_false hk))

theorem run_keepsCell {ks : List Nat} (ht : s.flags.SameBut ks t.flags) (hk : ks.contains k = false) :
    KeepsView (fun t => t.flags.cell k) s (run h s (.done t)) :=
  run_keepsView (cell_passBlind k) (Result.keepsCell_done ht hk)

theorem runRm_keepsCell {ks : List Nat} {g : Operand → BitVec 3 → State}
    (hg : ∀ o reg, s.flags.SameBut ks (g o reg).flags) (hk : ks.contains k = false) :
    KeepsView (fun t => t.flags.cell k) s (runRm h s fun o reg => .done (g o reg)) :=
  runRm_keepsView (cell_passBlind k) fun o reg _ => Result.keepsCell_done (hg o reg) hk

theorem tablePolicyBlind_of_flagPolicy_zero {α : Type} (view : State → α) (ht : s.tables = tRef)
    (hp : flagPolicy h.op.toNat = 0) : TablePolicyBlind view h s := fun _ => by rw [stdPolicy_tRef ht hp]; rfl

/-- An opcode byte whose entry is 0: step 6 changes no cell, and the handler decides. -/
theorem runTable_keepsCell (ht : s.tables = tRef) (hp : flagPolicy h.op.toNat = 0)
    (hr : r.KeepsView (fun t => t.flags.cell k) s) : KeepsView (fun t => t.flags.cell k) s (runTable h s r) :=
  runTable_keepsView (cell_passBlind k) (tablePolicyBlind_of_flagPolicy_zero _ ht hp) hr

theorem runRmTable_keepsCell {f : Operand → BitVec 3 → Result} (ht : s.tables = tRef)
    (hp : flagPolicy h.op.toNat = 0) (hf : ∀ o reg, (f o reg).KeepsView (fun t => t.flags.cell k) s) :
    KeepsView (fun t => t.flags.cell k) s (runRmTable h s f) :=
  runRmTable_keepsView (cell_passBlind k) (tablePolicyBlind_of_flagPolicy_zero _ ht hp) fun o reg _ => hf o reg

theorem State.sameBut_alu_bitwise {op : AluOp} (hop : op ∈ [AluOp.and, .or, .xor]) (w : Width) {p : Byte} (hp : p = 5)
    (o : Operand) (sv : Nat) : s.flags.SameBut [0, 2, 6, 7, 11] (s.alu op w p o sv).flags := by
  subst hp
  exact AluOp.sameBut_flags_bitwise s.tables w s.flags hop _ sv

theorem State.sameBut_test {p : Byte} (hp : p = 5) (w : Width) (a b : Nat) :
    s.flags.SameBut [0, 2, 6, 7, 11] (s.test w p a b).flags := by
  subst hp
  exact Flags.sameBut_policy_szpLogic s.tables w s.flags _

theorem State.sameBut_incDec_tRef (ht : s.tables = tRef) {op : Byte} (hp : flagPolicy op.toNat = 1) (w : Width)
    (o : Operand) (inc : Bool) : s.flags.SameBut [2, 4, 6, 7, 11] (s.incDec w (s.stdPolicy op) o inc).flags := by
  rw [stdPolicy_tRef ht hp]
  exact State.sameBut_incDec s w o inc

/-- An instruction that writes one cell (46_flag_ops.md R310 to R316). -/
theorem setFlag_keepsCell {i : Nat} (hk : (k == i) = false) (v : Bool) :
    Result.KeepsView (fun t => t.flags.cell k) s (.done (s.setFlag i v)) :=
  Result.keepsView_done (s.flags.cell_setCell_of_ne (ne_of_beq_false hk) v)

theorem deliver_keepsCell (hk : (k == 8 || k == 9) = false) (vector : Byte) (ret : Word) :
    Result.KeepsView (fun t => t.flags.cell k) s (.jump (s.deliver vector ret)) :=
  Result.keepsView_jump (s.sameBut_deliver vector ret k (by simpa using hk))

theorem State.sameBut_cmpsElement (w : Width) : s.flags.SameBut [0, 2, 4, 6, 7, 11] (s.cmpsElement w).flags :=
  AluOp.sameBut_flags s.tables w s.flags .cmp _ _ _

theorem State.sameBut_scasElement (w : Width) : s.flags.SameBut [0, 2, 4, 6, 7, 11] (s.scasElement w).flags :=
  AluOp.sameBut_flags s.tables w s.flags .cmp _ _ _

theorem State.movsElement_flags (s : State) (w : Width) : (s.movsElement w).flags = s.flags := rfl

theorem State.stosElement_flags (s : State) (w : Width) : (s.stosElement w).flags = s.flags := rfl

theorem State.lodsElement_flags (s : State) (w : Width) : (s.lodsElement w).flags = s.flags :=
  State.setReg_flags s w 0 _

theorem State.cell_runString {element : State → State} (he : ∀ u, (element u).flags.cell k = u.flags.cell k)
    (stop : State → Bool) : (s.runString element stop).flags.cell k = s.flags.cell k :=
  runString_keepsView (view := fun t => t.flags.cell k) he (fun _ => rfl) stop s

/-- A comparing string instruction writes the status flags in each of its elements (44_string.md R275, R276). -/
theorem run_string_keepsCell {element : State → State}
    (he : ∀ u : State, u.flags.SameBut [0, 2, 4, 6, 7, 11] (element u).flags)
    (hk : [0, 2, 4, 6, 7, 11].contains k = false) (stop : State → Bool) :
    KeepsView (fun t => t.flags.cell k) s (run h s (.done (s.runString element stop))) :=
  run_keepsView (cell_passBlind k)
    (Result.keepsView_done (State.cell_runString (fun u => he u k (not_mem_of_contains_false hk)) stop))

end

/-- Every well-formed instruction keeps the cells that `writesFlag` does not name for it, under `T_REF`: by the cells its
operation writes, and the entry of its opcode byte. -/
theorem exec_keepsCell (i : Instr) (s : State) (k : Nat) (ht : s.tables = tRef) (hw : i.wellFormed = true)
    (hk : writesFlag i k = false) : KeepsView (fun t => t.flags.cell k) s (exec i s) := by
  cases i with
  | addRmReg h | adcRmReg h | sbbRmReg h | subRmReg h | cmpRmReg h | addRmImm h | adcRmImm h | sbbRmImm h | subRmImm h
  | cmpRmImm h => exact runRm_keepsCell (fun _ _ => AluOp.sameBut_flags _ _ _ _ _ _ _) hk
  | addAccImm h imm | adcAccImm h imm | sbbAccImm h imm | subAccImm h imm | cmpAccImm h imm =>
    exact run_keepsCell (AluOp.sameBut_flags _ _ _ _ _ _ _) hk
  | andRmReg h | orRmReg h | xorRmReg h =>
    exact runRm_keepsCell (fun _ _ => State.sameBut_alu_bitwise (by decide) _
      (stdPolicy_tRef ht (range_of_in (both hw).1 rfl)) _ _) hk
  | andAccImm h imm | orAccImm h imm | xorAccImm h imm =>
    exact run_keepsCell (State.sameBut_alu_bitwise (by decide) _
      (stdPolicy_tRef ht (range_of_in (both (both hw).1).1 rfl)) _ _) hk
  | andRmImm h imm | orRmImm h imm | xorRmImm h imm =>
    exact runRm_keepsCell (fun _ _ => State.sameBut_alu_bitwise (by decide) _ (stdPolicy_tRef ht rfl) _ _) hk
  | testRmReg h =>
    exact runRm_keepsCell (fun _ _ => State.sameBut_test (stdPolicy_tRef ht (range_of_in (both hw).1 rfl)) _ _ _) hk
  | testAccImm h imm =>
    exact run_keepsCell (State.sameBut_test (stdPolicy_tRef ht (range_of_in (both (both hw).1).1 rfl)) _ _ _) hk
  | testRmImm h imm => exact runRm_keepsCell (fun _ _ => State.sameBut_test rfl _ _ _) hk
  | incReg h | decReg h =>
    exact run_keepsCell (State.sameBut_incDec_tRef ht (range_of_in (both hw).1 rfl) _ _ _) hk
  | incRm h | decRm h =>
    exact runRm_keepsCell (fun _ _ => State.sameBut_incDec_tRef ht
      (flagPolicy_incDec (both hw).1 (both hw).2 (by decide)) _ _ _) hk
  | neg h => exact runRm_keepsCell (fun _ _ => State.sameBut_negate _ _ _) hk
  | rolOne h | rolCl h | rorOne h | rorCl h | rclOne h | rclCl h | rcrOne h | rcrCl h =>
    exact runRm_keepsCell (fun _ _ => State.sameBut_shift _ _ (State.sameBut_shiftFlags_rotate _ _ rfl) _ _) hk
  | shlOne h | shlCl h | shrOne h | shrCl h | sarOne h | sarCl h =>
    exact runRm_keepsCell (fun _ _ => State.sameBut_shift _ _ (State.sameBut_shiftFlags _ _ _) _ _) hk
  | mul h | imul h =>
    exact runRmTable_keepsCell ht (range_of_in (both hw).1 rfl) fun _ _ =>
      Result.keepsCell_done (State.sameBut_mulFlags s _) hk
  | div h =>
    exact runRmTable_keepsCell ht (range_of_in (both hw).1 rfl) fun _ _ =>
      divide_keepsView (fun _ _ _ => State.sameBut_setQuotient s _ _ _ k (not_mem_of_contains_false hk)) _ _
  | idiv h =>
    exact runRmTable_keepsCell ht (range_of_in (both hw).1 rfl) fun _ _ =>
      divideSigned_keepsView (fun _ _ _ => State.sameBut_setQuotient s _ _ _ k (not_mem_of_contains_false hk)) _ _
  | daa h => exact run_keepsCell (State.sameBut_decimalAdd _ _) hk
  | das h => exact run_keepsCell (State.sameBut_decimalSub _ _) hk
  | aad h imm => exact run_keepsCell (State.sameBut_setBcd _ _ _ _) hk
  | aam h imm =>
    refine run_keepsView (cell_passBlind k) ?_
    split
    · exact Result.keepsView_raise _ _ _
    · exact Result.keepsCell_done (State.sameBut_setBcd s _ _ _) hk
  | aaa h | aas h =>
    exact runTable_keepsCell ht (value_of_is (both hw).1 rfl)
      (Result.keepsCell_done (State.sameBut_asciiAdjust s _ _) hk)
  | movRmReg h | not h =>
    exact runRmTable_keepsCell ht (range_of_in (both hw).1 rfl) fun _ _ =>
      Result.keepsView_done (cell_congr (State.writeOp_flags _ _ _ _))
  | movRmImm h imm =>
    exact runRmTable_keepsCell ht (range_of_in (both (both hw).1).1 rfl) fun _ _ =>
      Result.keepsView_done (cell_congr (State.writeOp_flags _ _ _ _))
  | movRmSreg h =>
    exact runRmTable_keepsCell ht (value_of_is (both hw).1 rfl) fun _ _ =>
      Result.keepsView_done (cell_congr (State.writeOp_flags _ _ _ _))
  | movRegImm h imm =>
    exact runTable_keepsCell ht (range_of_in (both (both hw).1).1 rfl)
      (Result.keepsView_done (cell_congr (State.setReg_flags _ _ _ _)))
  | movMoffs h addr =>
    refine runTable_keepsCell ht (range_of_in (both hw).1 rfl) (Result.keepsView_done ?_)
    split
    · rfl
    · exact cell_congr (State.setReg_flags _ _ _ _)
  | movSregRm h =>
    exact runRmTable_keepsCell ht (value_of_is (both hw).1 rfl) fun _ _ =>
      Result.keepsView_done (cell_congr (State.setSreg_flags _ _ _))
  | xchgRmReg h =>
    exact runRmTable_keepsCell ht (range_of_in (both hw).1 rfl) fun _ _ =>
      Result.keepsView_done (cell_congr ((State.setReg_flags _ _ _ _).trans (State.writeOp_flags _ _ _ _)))
  | xchgAx h =>
    exact runTable_keepsCell ht (range_of_in (both hw).1 rfl)
      (Result.keepsView_done (cell_congr (State.setReg16_flags _ _ _)))
  | lea h =>
    exact runRmTable_keepsCell ht (value_of_is (both hw).1 rfl) fun _ _ => Result.keepsView_withMemory fun _ _ =>
      Result.keepsView_done (cell_congr (State.setReg16_flags _ _ _))
  | les h | lds h =>
    exact runRmTable_keepsCell ht (value_of_is (both hw).1 rfl) fun _ _ => Result.keepsView_withMemory fun _ _ =>
      Result.keepsView_done (cell_congr ((State.setSreg_flags _ _ _).trans (State.setReg16_flags _ _ _)))
  | nop h | xlat h | cbw h | cwd h | lahf h | hlt h | repnz h | repz h | pushf h =>
    exact runTable_keepsCell ht (value_of_is (both hw).1 rfl) (Result.keepsView_done rfl)
  | seg h q | pushSreg h q =>
    exact runTable_keepsCell ht (value_of_is (both hw).1 (by cases q <;> rfl)) (Result.keepsView_done rfl)
  | jmpRel8 h rel | jmpRel16 h rel | jmpFar h off seg | callRel h rel | callFar h off seg | ret h | retImm h imm | retf h
  | retfImm h imm => exact runTable_keepsCell ht (value_of_is (both hw).1 rfl) (Result.keepsView_jump rfl)
  | jmpRm h | callRm h =>
    exact runRmTable_keepsCell ht (value_of_is (both hw).1 rfl) fun _ _ => Result.keepsView_jump rfl
  | jmpFarRm h | callFarRm h =>
    exact runRmTable_keepsCell ht (value_of_is (both hw).1 rfl) fun _ _ => Result.keepsView_withMemory fun _ _ =>
      Result.keepsView_jump rfl
  | jo h rel | jno h rel | jb h rel | jnb h rel | jz h rel | jnz h rel | jbe h rel | jnbe h rel | js h rel | jns h rel
  | jp h rel | jnp h rel | jl h rel | jnl h rel | jle h rel | jnle h rel =>
    exact runTable_keepsCell ht (value_of_is (both hw).1 rfl) (condJump_keepsView (cell_passBlind k) rel)
  | loopnz h rel | loopz h rel | loop h rel =>
    exact runTable_keepsCell ht (value_of_is (both hw).1 rfl)
      (loopJump_keepsView (cell_passBlind k) (fun _ => rfl) _ rel)
  | jcxz h rel =>
    exact runTable_keepsCell ht (value_of_is (both hw).1 rfl) (jumpIf_keepsView (cell_passBlind k) rfl _ rel)
  | movs h =>
    exact runTable_keepsCell ht (range_of_in (both hw).1 rfl)
      (Result.keepsView_done (State.cell_runString (fun _ => cell_congr (State.movsElement_flags _ _)) _))
  | stos h =>
    exact runTable_keepsCell ht (range_of_in (both hw).1 rfl)
      (Result.keepsView_done (State.cell_runString (fun _ => cell_congr (State.stosElement_flags _ _)) _))
  | lods h =>
    exact runTable_keepsCell ht (range_of_in (both hw).1 rfl)
      (Result.keepsView_done (State.cell_runString (fun _ => cell_congr (State.lodsElement_flags _ _)) _))
  | cmps h => exact run_string_keepsCell (fun _ => State.sameBut_cmpsElement _) hk _
  | scas h => exact run_string_keepsCell (fun _ => State.sameBut_scasElement _) hk _
  | pushReg h =>
    refine runTable_keepsCell ht (range_of_in (both hw).1 rfl) (Result.keepsView_done ?_)
    split <;> rfl
  | pushRm h =>
    refine runRmTable_keepsCell ht (value_of_is (both hw).1 rfl) fun _ _ => Result.keepsView_done ?_
    split <;> rfl
  | popReg h =>
    exact runTable_keepsCell ht (range_of_in (both hw).1 rfl)
      (Result.keepsView_done (cell_congr (State.setReg16_flags _ _ _)))
  | popSreg h q =>
    exact runTable_keepsCell ht (value_of_is (both (both hw).1).1 (by cases q <;> rfl))
      (Result.keepsView_done (cell_congr (State.setSreg_flags _ _ _)))
  | popRm h =>
    exact runRmTable_keepsCell ht (value_of_is (both hw).1 rfl) fun _ _ =>
      Result.keepsView_done (cell_congr (State.writeOp_flags _ _ _ _))
  | sahf h =>
    exact runTable_keepsCell ht (value_of_is (both hw).1 rfl)
      (Result.keepsCell_done (Flags.sameBut_loadLow s.flags s.ah) hk)
  | clc h | stc h | cmc h | cli h | sti h | cld h | std h =>
    exact runTable_keepsCell ht (value_of_is (both hw).1 rfl) (setFlag_keepsCell hk _)
  | int3 h => exact runTable_keepsCell ht (value_of_is (both hw).1 rfl) (deliver_keepsCell hk _ _)
  | int h vector =>
    refine runTable_keepsCell ht (value_of_is (both hw).1 rfl) ?_
    split
    · exact Result.keepsView_raise _ _ _
    · exact deliver_keepsCell hk _ _
  | into h =>
    refine runTable_keepsCell ht (value_of_is (both hw).1 rfl) ?_
    split
    · exact deliver_keepsCell hk _ _
    · exact Result.keepsView_done rfl
  | popf h | iret h => cases hk
  | inImm h port | inDx h | outImm h port | outDx h | reservedMember h =>
    exact run_keepsView (cell_passBlind k) (Result.keepsView_raise _ _ _)
  | reservedOpcode h | reservedWait h | reservedLock h | reservedEsc h =>
    exact finish_keepsView (cell_passBlind k) (Result.keepsView_raise _ _ _)

/-- Settles O55, instruction by instruction. -/
theorem flagsKept : Obligations.FlagsKept :=
  fun i s t k ht hw he hk => exec_keepsCell i s k ht hw hk t he

end Sys2Proof.Machine
end

section
/-! Memory: stores, the canonical form, physical addresses (20_memory.md R60 to R67). -/

namespace Sys2Proof.Machine

theorem Memory.read_writeWord (m : Memory) (a b : Nat) (v : Word) :
    (m.writeWord a v).read b = if b = a then loByte v else if b = a + 1 then hiByte v else m.read b := by
  unfold Memory.writeWord
  simp only [Memory.read_write]
  by_cases h : b = a
  · simp [h]
  · simp [h]

/-- Settles O12, by what a read finds after a store of a byte and of a word. -/
theorem storesAreReadBack : Obligations.StoresAreReadBack := fun m a b u v =>
  ⟨m.read_write a b u, m.read_writeWord a b v, m.readWord_writeWord_self a v⟩

/-- A listed cell is what its address reads as, in a memory of rising addresses. -/
theorem Memory.read_of_mem {m : Memory} (hm : m.Pairwise fun c d => c.1 < d.1) {c : Host.Cell} (hc : c ∈ m) :
    m.read c.1 = c.2 := by
  induction hm with
  | nil => cases hc
  | cons hlt _ ih =>
    rcases List.mem_cons.mp hc with rfl | hc
    · exact if_pos rfl
    · exact (if_neg (hlt c hc).ne).trans (ih hc)

/-- An address that does not read as an unlisted one is listed. -/
theorem Memory.mem_of_read_ne (m : Memory) {a : Nat} (h : m.read a ≠ unlistedByte a) : (a, m.read a) ∈ m := by
  induction m with
  | nil => exact absurd rfl h
  | cons c rest ih =>
    obtain ⟨k, v⟩ := c
    by_cases hk : k = a
    · simp [Memory.read, hk]
    · simp only [Memory.read, if_neg hk] at h ⊢
      exact List.mem_cons_of_mem _ (ih h)

/-- The cells of a canonical memory are the addresses that do not read as unlisted ones, with what they read as. -/
theorem Memory.mem_iff_read {m : Memory} (hm : m.wf = true) (c : Host.Cell) :
    c ∈ m ↔ m.read c.1 = c.2 ∧ c.2 ≠ unlistedByte c.1 := by
  obtain ⟨hrise, hcell⟩ := (Memory.wf_iff m).mp hm
  constructor
  · exact fun hc => ⟨Memory.read_of_mem hrise hc, (hcell c hc).2⟩
  · rintro ⟨hr, hu⟩
    have hc := m.mem_of_read_ne (hr ▸ hu)
    rwa [hr] at hc

/-- Settles O13: what is read determines the cells, and their addresses determine the order. -/
theorem canonicalMemoriesAreEqual : Obligations.CanonicalMemoriesAreEqual := by
  intro m n hm hn hread
  have hmem (c : Host.Cell) : c ∈ m ↔ c ∈ n := by
    rw [Memory.mem_iff_read hm, Memory.mem_iff_read hn, hread]
  have hmr := ((Memory.wf_iff m).mp hm).1
  have hnr := ((Memory.wf_iff n).mp hn).1
  have hperm : m.Perm n := (List.perm_ext_iff_of_nodup (hmr.imp fun h e => h.ne (congrArg Prod.fst e))
    (hnr.imp fun h e => h.ne (congrArg Prod.fst e))).mpr hmem
  exact hperm.eq_of_pairwise (fun _ _ _ _ h k => absurd h k.asymm) hmr hnr

/-- Settles O14: both words are below 2^16. -/
theorem physicalAddressesAreInMemory : Obligations.PhysicalAddressesAreInMemory := by
  intro seg off
  have hs := seg.isLt
  have ho := off.isLt
  unfold phys
  omega

end Sys2Proof.Machine
end

section
/-! The invariant over a step (20_memory.md R61; 30_encoding.md R116; 10_state.md R41, R42), and that every step answers
a next state. -/

namespace Sys2Proof.Machine

/-- Settles O7, by the three cases of a step; the end of a pass always gives a next state. -/
theorem everyStepGivesANextState : Obligations.EveryStepGivesANextState := by
  intro s
  rcases step_cases s with ⟨-, h⟩ | ⟨-, -, h⟩ | ⟨-, -, r, h⟩
  · exact ⟨_, h⟩
  · exact ⟨_, h⟩
  · rw [h]; exact finish_next _ s r

/-- The invariant with latch counters at most `n`: `n` is 1 between passes, and 2 before a pass ends, since a counter that
its handler has set or kept alive is still to fall (30_encoding.md R116; 47_io_prefix_int_halt.md R322, R323). -/
structure State.InvUpTo (n : Nat) (s : State) : Prop where
  mem : s.mem.wf = true
  segCnt : s.segCnt ≤ n
  repCnt : s.repCnt ≤ n
  record : s.faultRecord.isSome = decide (s.runState = .faulted)

theorem State.inv_iff (s : State) : s.inv = true ↔ s.InvUpTo 1 := by
  simp only [State.inv, Bool.and_eq_true, decide_eq_true_eq, beq_iff_eq]
  exact ⟨fun ⟨⟨⟨hm, hs⟩, hr⟩, hf⟩ => ⟨hm, hs, hr, hf⟩, fun ⟨hm, hs, hr, hf⟩ => ⟨⟨⟨hm, hs⟩, hr⟩, hf⟩⟩

section
variable {h : Head} {s t u : State} {r : Result}

theorem State.InvUpTo.endPass (hu : u.InvUpTo 2) (ip : Word) : (State.endPass { u with ip := ip }).InvUpTo 1 :=
  ⟨hu.mem, Nat.sub_le_of_le_add hu.segCnt, Nat.sub_le_of_le_add hu.repCnt, hu.record⟩

theorem State.InvUpTo.raiseFault (hs : s.InvUpTo 1) (h : Head) (k : FaultKind) (q : Option FaultReason)
    (v : Option Byte) : (s.raiseFault h k q v).InvUpTo 1 := ⟨hs.mem, hs.segCnt, hs.repCnt, rfl⟩

theorem State.InvUpTo.withFlags {n : Nat} (hu : u.InvUpTo n) (f : Flags) : { u with flags := f }.InvUpTo n :=
  ⟨hu.mem, hu.segCnt, hu.repCnt, hu.record⟩

theorem Keeps.invUpTo (hk : Keeps s u) (hs : s.InvUpTo 1) : u.InvUpTo 2 where
  mem := hk.mem hs.mem
  segCnt := by rw [hk.segCnt]; exact Nat.le_succ_of_le hs.segCnt
  repCnt := by rw [hk.repCnt]; exact Nat.le_succ_of_le hs.repCnt
  record := by rw [hk.faultRecord, hk.runState]; exact hs.record

/-- The end of a pass brings the counters of what the handler leaves back to at most 1; a fault records itself. -/
theorem finish_invUpTo (hs : s.InvUpTo 1) (hr : ∀ u, r = .done u ∨ r = .jump u → u.InvUpTo 2)
    (he : finish h s r = .next t) : t.InvUpTo 1 := by
  cases r with
  | done u => cases he; exact (hr u (.inl rfl)).endPass _
  | jump u => cases he; exact (hr u (.inr rfl)).endPass u.ip
  | raise k q v => cases he; exact hs.raiseFault h k q v

theorem runTable_done_invUpTo (hs : s.InvUpTo 1) (he : runTable h s (.done u) = .next t) (hu : u.InvUpTo 2) :
    t.InvUpTo 1 := by
  rcases run_cases h s (tablePolicy h s (.done u)) with ⟨hr, -⟩ | ⟨hr, -⟩
  · exact finish_invUpTo hs (fun _ hv => by rcases hv with hv | hv <;> cases hv) (hr.symm.trans he)
  · refine finish_invUpTo hs (fun _ hv => ?_) (hr.symm.trans he)
    rcases hv with hv | hv <;> cases hv
    exact hu.withFlags _

theorem keepAlive_le {n : Nat} (hn : n ≤ 1) : keepAlive n ≤ 2 := by
  unfold keepAlive; split <;> omega

theorem State.InvUpTo.latchRepeat (hs : s.InvUpTo 1) (mode : RepMode) : (s.latchRepeat mode).InvUpTo 2 :=
  ⟨hs.mem, keepAlive_le hs.segCnt, Nat.le_refl 2, hs.record⟩

/-- Every instruction keeps the invariant: but for the prefixes and HLT, its handler keeps the engine's own state. -/
theorem exec_invUpTo {i : Instr} (hs : s.InvUpTo 1) (hrun : s.runState = .running) (he : exec i s = .next t) :
    t.InvUpTo 1 := by
  cases hw : writesEngine i with
  | false =>
    obtain ⟨r, hr, hk⟩ := exec_ends i s hw
    exact finish_invUpTo hs (fun u hu => (hk u hu).invUpTo hs) (hr.symm.trans he)
  | true =>
    cases i with
    | seg h q =>
      exact runTable_done_invUpTo hs he ⟨hs.mem, Nat.le_refl 2, keepAlive_le hs.repCnt, hs.record⟩
    | repnz h => exact runTable_done_invUpTo hs he (hs.latchRepeat .repnz)
    | repz h => exact runTable_done_invUpTo hs he (hs.latchRepeat .repz)
    | hlt h =>
      have hrec : s.faultRecord.isSome = false := by rw [hs.record, hrun]; rfl
      exact runTable_done_invUpTo hs he
        ⟨hs.mem, Nat.le_succ_of_le hs.segCnt, Nat.le_succ_of_le hs.repCnt, hrec⟩
    | _ => cases hw

theorem step_invUpTo (hs : s.InvUpTo 1) (he : step s = .next t) : t.InvUpTo 1 := by
  by_cases hrun : s.runState = .running
  · cases hq : s.stopRequested with
    | true =>
      rw [step_stop hrun hq] at he
      cases he
      exact ⟨hs.mem, hs.segCnt, hs.repCnt, by rw [hs.record, hrun]; rfl⟩
    | false => exact exec_invUpTo hs hrun ((step_pass hrun hq).symm.trans he)
  · rw [step_terminal hrun] at he
    cases he
    exact hs

end

/-- Settles O9, by the cases of a step and of the instruction a pass runs. -/
theorem everyStepKeepsTheInvariant : Obligations.EveryStepKeepsTheInvariant := fun s t hs he =>
  t.inv_iff.mpr (step_invUpTo (s.inv_iff.mp hs) he)

end Sys2Proof.Machine
end

section
/-! The frame of memory for the instructions that store into their operand or nothing (20_memory.md R65; 30_encoding.md
R105 to R109): the operand under `T_REF`, what keeps a byte, and O57. -/

namespace Sys2Proof.Machine

open Sys2Proof.Laws Sys2Proof.Spec

/-! ### The operand that the resolver gives under `T_REF` -/

theorem State.formSegment_eq_segmentValue (s : State) {f : Form} {d : SReg} (hd : s.tableReg f.defseg = some (s.sreg d)) :
    s.formSegment f = some (segmentValue s d) := by
  unfold State.formSegment segmentValue State.segActive
  by_cases hc : 0 < s.segCnt <;> simp [hc, hd]

theorem State.ovr_eq_segmentValue (s : State) (d : SReg) : s.ovr d = segmentValue s d := by
  simp [State.ovr, segmentValue, State.segActive]

/-- A form whose entries name two registers, a multiplier and a segment register gives the memory operand at their sum. -/
theorem State.memOperand_eq {s : State} {f : Form} {disp r1 r2 d off : Word} {q : SReg}
    (h1 : s.tableReg f.reg1 = some r1) (h2 : s.tableReg f.reg2 = some r2) (h3 : scaledDisp f.mult disp = some d)
    (h4 : s.tableReg f.defseg = some (s.sreg q)) (hoff : r1 + r2 + d = off) :
    s.memOperand f disp = some (memAt s q off) := by
  subst hoff
  simp only [State.memOperand, h1, h2, h3, s.formSegment_eq_segmentValue h4]
  rfl

theorem bitVec3_cases : ∀ n : BitVec 3, n = 0 ∨ n = 1 ∨ n = 2 ∨ n = 3 ∨ n = 4 ∨ n = 5 ∨ n = 6 ∨ n = 7 := by decide

/-- The displacement bank of `T_REF` gives the forms of 30_encoding.md R105. -/
theorem State.memOperand_formDisp (s : State) (rm : BitVec 3) (disp : Word) :
    s.memOperand (Tables.formDisp tRef rm) disp = some (memAt s (Spec.formSegment rm) (baseOffset s rm + disp)) := by
  rw [formDisp_tRef]
  rcases bitVec3_cases rm with rfl | rfl | rfl | rfl | rfl | rfl | rfl | rfl <;>
    exact State.memOperand_eq rfl rfl rfl rfl (by simp [baseOffset])

/-- The zero-displacement bank of `T_REF` gives the forms of 30_encoding.md R105, but for `rm = 6`. -/
theorem State.memOperand_formZero (s : State) {rm : BitVec 3} (hrm : rm ≠ 6) :
    s.memOperand (Tables.formZero tRef rm) 0 = some (memAt s (Spec.formSegment rm) (baseOffset s rm)) := by
  rw [formZero_tRef]
  rcases bitVec3_cases rm with rfl | rfl | rfl | rfl | rfl | rfl | h6 | rfl
  case inr.inr.inr.inr.inr.inr.inl => exact absurd h6 hrm
  all_goals exact State.memOperand_eq rfl rfl rfl rfl (by simp [baseOffset])

/-- With `rm = 6` the zero-displacement bank gives the direct offset (30_encoding.md R107). -/
theorem State.memOperand_formZero_direct (s : State) (disp : Word) :
    s.memOperand (Tables.formZero tRef 6) disp = some (memAt s .ds disp) := by
  rw [formZero_tRef]
  exact State.memOperand_eq rfl rfl rfl rfl (by simp)

/-- Under `T_REF` the resolver gives the operand of the 8086 addressing forms (30_encoding.md R101 to R107). -/
theorem resolveRm_tRef {s : State} (ht : s.tables = tRef) {ea : RM} (hw : ea.wellFormed = true) :
    s.resolveRm ea = some (operand s ea) := by
  cases ea with
  | reg rm => rfl
  | mem rm =>
    have hrm : rm ≠ 6 := by simpa [RM.wellFormed] using hw
    simp only [State.resolveRm, ht, s.memOperand_formZero hrm, operand]
  | direct disp => simp only [State.resolveRm, ht, s.memOperand_formZero_direct, operand]
  | mem8 rm disp => simp only [State.resolveRm, ht, s.memOperand_formDisp, operand, sext]
  | mem16 rm disp => simp only [State.resolveRm, ht, s.memOperand_formDisp, operand]

theorem ea_wellFormed_of_hasRm {h : Head} {m : ModRM} (hw : h.hasRm = true) (hm : h.modrm = some m) :
    m.ea.wellFormed = true := by simpa [Head.hasRm, hm] using hw

/-! ### What keeps a byte -/

/-- The byte at `a` is outside the operand of width `w`: the operand is a register, or memory elsewhere. -/
def Operand.Avoids (o : Operand) (w : Width) (a : Nat) : Prop := ∀ ea b, o = .mem ea b → a < b ∨ b + w.bytes ≤ a

/-- The byte at `a` is outside the store that `operandStore` names. -/
def StoreAvoids (st : Option (Nat × Width)) (a : Nat) : Prop := ∀ b w, st = some (b, w) → a < b ∨ b + w.bytes ≤ a

theorem Operand.avoids_reg (n : BitVec 3) (w : Width) (a : Nat) : (Operand.reg n).Avoids w a := by
  intro ea b h; cases h

theorem mem_passBlind (a : Nat) : PassBlind fun t => t.mem.read a where
  ip _ _ := rfl
  endPass _ := rfl
  raiseFault _ _ _ _ _ := rfl

/-- The operand a handler gets avoids the bytes that the store to it avoids. -/
theorem Operand.avoids_of_rmStore {s : State} {h : Head} {w : Width} {a : Nat} {o : Operand} {reg : BitVec 3}
    (ht : s.tables = tRef) (hw : h.hasRm = true) (hs : StoreAvoids (rmStore s h w) a)
    (ho : s.resolve h = .operands o reg) : o.Avoids w a := by
  obtain ⟨m, hm, -, hr⟩ := resolve_operands ho
  rw [resolveRm_tRef ht (ea_wellFormed_of_hasRm hw hm)] at hr
  rintro ea b rfl
  exact hs b w (by simp only [rmStore, hm, Option.some.inj hr])

section
variable {s t : State} {h : Head} {w : Width} {a : Nat} {o : Operand}

theorem State.read_writeOp (ho : o.Avoids w a) (v : Nat) : (s.writeOp w o v).mem.read a = s.mem.read a := by
  rw [writeOp_mem]
  cases o with
  | reg n => rfl
  | mem ea b => exact Memory.read_writeW_outside _ w (ho ea b rfl) v

/-- CMP stores nothing; every other operation stores into its destination (41_arithmetic.md R170). -/
theorem State.read_alu {op : AluOp} (ho : op = .cmp ∨ o.Avoids w a) (p : Byte) (sv : Nat) :
    (s.alu op w p o sv).mem.read a = s.mem.read a := by
  by_cases hc : op = .cmp
  · simp only [State.alu, if_pos hc]
  · simp only [State.alu, if_neg hc]
    exact State.read_writeOp (ho.resolve_left hc) _

theorem State.read_shift (ho : o.Avoids w a) (op : ShiftOp) (n : Nat) :
    (s.shift op w o n).mem.read a = s.mem.read a := by
  unfold State.shift
  split
  · rfl
  · exact State.read_writeOp ho _

theorem State.mem_setProduct (p : Nat) : (s.setProduct w p).mem = s.mem := by cases w <;> rfl

theorem State.mem_setQuotient (q r : Nat) : (s.setQuotient w q r).mem = s.mem := by cases w <;> rfl

theorem State.mem_asciiAdjust (al ah : Byte) : (s.asciiAdjust al ah).mem = s.mem := by
  unfold State.asciiAdjust
  split <;> rfl

theorem State.mem_runString {element : State → State} (he : ∀ u, (element u).mem = u.mem) (stop : State → Bool) :
    (s.runString element stop).mem = s.mem := runString_keepsView (view := State.mem) he (fun _ => rfl) stop s

theorem State.mem_lodsElement : (s.lodsElement w).mem = s.mem := State.setReg_mem s w 0 _

theorem State.mem_cmpsElement : (s.cmpsElement w).mem = s.mem := rfl

theorem State.mem_scasElement : (s.scasElement w).mem = s.mem := rfl

/-- No element is processed with the repeat latch and CX = 0 (44_string.md R271). -/
theorem State.runString_of_elementCount_zero (hn : elementCount s = 0) (element : State → State)
    (stop : State → Bool) : s.runString element stop = s := by
  unfold elementCount at hn
  split at hn
  · next hr => simp [State.runString, State.repActive, hr, hn, repeatElements]
  · cases hn

theorem read_congr (hm : t.mem = s.mem) : t.mem.read a = s.mem.read a := by rw [hm]

theorem run_keepsByte {r : Result} (hr : r.KeepsView (fun t => t.mem.read a) s) :
    KeepsView (fun t => t.mem.read a) s (run h s r) := run_keepsView (mem_passBlind a) hr

theorem runTable_keepsByte {r : Result} (hr : r.KeepsView (fun t => t.mem.read a) s) :
    KeepsView (fun t => t.mem.read a) s (runTable h s r) := runTable_keepsView (mem_passBlind a) (fun _ => rfl) hr

theorem runRm_keepsByte {f : Operand → BitVec 3 → Result}
    (hf : ∀ o reg, s.resolve h = .operands o reg → (f o reg).KeepsView (fun t => t.mem.read a) s) :
    KeepsView (fun t => t.mem.read a) s (runRm h s f) := runRm_keepsView (mem_passBlind a) hf

theorem runRmTable_keepsByte {f : Operand → BitVec 3 → Result}
    (hf : ∀ o reg, s.resolve h = .operands o reg → (f o reg).KeepsView (fun t => t.mem.read a) s) :
    KeepsView (fun t => t.mem.read a) s (runRmTable h s f) :=
  runRmTable_keepsView (mem_passBlind a) (fun _ => rfl) hf

/-- The destination of a format with a direction bit avoids what its store avoids (30_encoding.md R97, R109). -/
theorem Operand.avoids_direct {reg : BitVec 3} (ht : s.tables = tRef) (hw : h.hasRm = true)
    (hs : StoreAvoids (if h.op.getLsbD 1 then none else rmStore s h w) a)
    (ho : s.resolve h = .operands o reg) : (direct h.dir o reg).1.Avoids w a := by
  unfold Head.dir
  cases hd : h.op.getLsbD 1 with
  | true => exact Operand.avoids_reg reg w a
  | false =>
    simp only [hd, Bool.false_eq_true, if_false] at hs
    exact Operand.avoids_of_rmStore ht hw hs ho

/-- An instruction that leaves its result in its ModRM operand. -/
theorem runRm_keepsByte_of_rmStore {g : Operand → BitVec 3 → State} (ht : s.tables = tRef) (hw : h.hasRm = true)
    (hs : StoreAvoids (rmStore s h w) a)
    (hg : ∀ o reg, o.Avoids w a → (g o reg).mem.read a = s.mem.read a) :
    KeepsView (fun t => t.mem.read a) s (runRm h s fun o reg => .done (g o reg)) :=
  runRm_keepsByte fun o reg ho => Result.keepsView_done (hg o reg (Operand.avoids_of_rmStore ht hw hs ho))

theorem runRmTable_keepsByte_of_rmStore {g : Operand → BitVec 3 → State} (ht : s.tables = tRef) (hw : h.hasRm = true)
    (hs : StoreAvoids (rmStore s h w) a)
    (hg : ∀ o reg, o.Avoids w a → (g o reg).mem.read a = s.mem.read a) :
    KeepsView (fun t => t.mem.read a) s (runRmTable h s fun o reg => .done (g o reg)) :=
  runRmTable_keepsByte fun o reg ho => Result.keepsView_done (hg o reg (Operand.avoids_of_rmStore ht hw hs ho))

end

/-- MOV of a direct offset stores at `phys(ovr(DS), offset)` in its store form, and nothing in the other one
(40_data_movement.md R144). -/
theorem execMovMoffs_keepsByte {h : Head} {addr : Word} {s : State} {a : Nat}
    (hs : StoreAvoids (operandStore (.movMoffs h addr) s) a) :
    KeepsView (fun t => t.mem.read a) s (execMovMoffs h addr s) := by
  refine runTable_keepsByte (Result.keepsView_done ?_)
  unfold Head.dir
  split
  · next hd =>
    have ha := hs (phys (s.ovr .ds) addr) h.width
      (by simp only [operandStore, if_pos hd, phys, s.ovr_eq_segmentValue])
    exact Memory.read_writeW_outside _ _ ha _
  · exact read_congr (State.setReg_mem _ _ _ _)

/-- Every well-formed instruction that pushes nothing and is no string store keeps the bytes outside the store that
`operandStore` names for it, under `T_REF` (20_memory.md R65; 30_encoding.md R109). -/
theorem exec_keepsByte (i : Instr) (s : State) (a : Nat) (ht : s.tables = tRef) (hw : i.wellFormed = true)
    (hp : pushCount i s = 0) (he : elementStores i s = 0) (hs : StoreAvoids (operandStore i s) a) :
    KeepsView (fun t => t.mem.read a) s (exec i s) := by
  cases i with
  | addRmReg h | orRmReg h | adcRmReg h | sbbRmReg h | andRmReg h | subRmReg h | xorRmReg h =>
    exact runRm_keepsByte fun _ _ ho => Result.keepsView_done
      (State.read_alu (.inr (Operand.avoids_direct ht (both hw).2 hs ho)) _ _)
  | addRmImm h imm | orRmImm h imm | adcRmImm h imm | sbbRmImm h imm | andRmImm h imm | subRmImm h imm
  | xorRmImm h imm =>
    exact runRm_keepsByte_of_rmStore ht (hasRm_of_hasDigit (both (both hw).1).2) hs
      fun _ _ ho => State.read_alu (.inr ho) _ _
  | addAccImm h imm | orAccImm h imm | adcAccImm h imm | sbbAccImm h imm | andAccImm h imm | subAccImm h imm
  | xorAccImm h imm | cmpAccImm h imm =>
    exact run_keepsByte (Result.keepsView_done (State.read_alu (.inr (Operand.avoids_reg _ _ _)) _ _))
  | cmpRmReg h | cmpRmImm h imm =>
    exact runRm_keepsByte fun _ _ _ => Result.keepsView_done (State.read_alu (.inl rfl) _ _)
  | testRmReg h | testRmImm h imm => exact runRm_keepsByte fun _ _ _ => Result.keepsView_done rfl
  | testAccImm h imm => exact run_keepsByte (Result.keepsView_done rfl)
  | incRm h | decRm h | neg h =>
    exact runRm_keepsByte_of_rmStore ht (hasRm_of_hasDigit (both hw).2) hs fun _ _ ho => State.read_writeOp ho _
  | incReg h | decReg h =>
    exact run_keepsByte (Result.keepsView_done (State.read_writeOp (Operand.avoids_reg _ .word a) _))
  | not h | popRm h =>
    exact runRmTable_keepsByte_of_rmStore ht (hasRm_of_hasDigit (both hw).2) hs fun _ _ ho => State.read_writeOp ho _
  | rolOne h | rolCl h | rorOne h | rorCl h | rclOne h | rclCl h | rcrOne h | rcrCl h | shlOne h | shlCl h | shrOne h
  | shrCl h | sarOne h | sarCl h =>
    exact runRm_keepsByte_of_rmStore ht (hasRm_of_hasDigit (both hw).2) hs fun _ _ ho => State.read_shift ho _ _
  | mul h | imul h =>
    exact runRmTable_keepsByte fun _ _ _ => Result.keepsView_done (read_congr (State.mem_setProduct _))
  | div h =>
    exact runRmTable_keepsByte fun _ _ _ =>
      divide_keepsView (fun _ _ _ => read_congr (State.mem_setQuotient _ _)) _ _
  | idiv h =>
    exact runRmTable_keepsByte fun _ _ _ =>
      divideSigned_keepsView (fun _ _ _ => read_congr (State.mem_setQuotient _ _)) _ _
  | daa h | das h | aad h imm => exact run_keepsByte (Result.keepsView_done rfl)
  | aam h imm =>
    refine run_keepsByte ?_
    split
    · exact Result.keepsView_raise _ _ _
    · exact Result.keepsView_done rfl
  | aaa h | aas h => exact runTable_keepsByte (Result.keepsView_done (read_congr (State.mem_asciiAdjust _ _)))
  | movRmReg h =>
    exact runRmTable_keepsByte fun _ _ ho => Result.keepsView_done
      (State.read_writeOp (Operand.avoids_direct ht (both hw).2 hs ho) _)
  | movRmImm h imm =>
    exact runRmTable_keepsByte_of_rmStore ht (hasRm_of_hasDigit (both (both hw).1).2) hs
      fun _ _ ho => State.read_writeOp ho _
  | movRmSreg h =>
    exact runRmTable_keepsByte_of_rmStore ht (hasRm_of_hasSreg (both hw).2) hs fun _ _ ho => State.read_writeOp ho _
  | movRegImm h imm => exact runTable_keepsByte (Result.keepsView_done (read_congr (State.setReg_mem _ _ _ _)))
  | movMoffs h addr => exact execMovMoffs_keepsByte hs
  | movSregRm h =>
    exact runRmTable_keepsByte fun _ _ _ => Result.keepsView_done (read_congr (State.setSreg_mem _ _ _))
  | xchgRmReg h =>
    exact runRmTable_keepsByte_of_rmStore ht (both hw).2 hs fun _ _ ho =>
      (read_congr (State.setReg_mem _ _ _ _)).trans (State.read_writeOp ho _)
  | xchgAx h => exact runTable_keepsByte (Result.keepsView_done (read_congr (State.setReg16_mem _ _ _)))
  | lea h =>
    exact runRmTable_keepsByte fun _ _ _ => Result.keepsView_withMemory fun _ _ =>
      Result.keepsView_done (read_congr (State.setReg16_mem _ _ _))
  | les h | lds h =>
    exact runRmTable_keepsByte fun _ _ _ => Result.keepsView_withMemory fun _ _ =>
      Result.keepsView_done (read_congr ((State.setSreg_mem _ _ _).trans (State.setReg16_mem _ _ _)))
  | nop h | xlat h | cbw h | cwd h | lahf h | sahf h | clc h | stc h | cli h | sti h | cld h | std h | cmc h | popf h
  | hlt h | seg h q | repnz h | repz h => exact runTable_keepsByte (Result.keepsView_done rfl)
  | jo h rel | jno h rel | jb h rel | jnb h rel | jz h rel | jnz h rel | jbe h rel | jnbe h rel | js h rel | jns h rel
  | jp h rel | jnp h rel | jl h rel | jnl h rel | jle h rel | jnle h rel =>
    exact runTable_keepsByte (condJump_keepsView (mem_passBlind a) rel)
  | loopnz h rel | loopz h rel | loop h rel =>
    exact runTable_keepsByte (loopJump_keepsView (mem_passBlind a) (fun _ => rfl) _ rel)
  | jcxz h rel => exact runTable_keepsByte (jumpIf_keepsView (mem_passBlind a) rfl _ rel)
  | jmpRel8 h rel | jmpRel16 h rel | jmpFar h off seg | ret h | retImm h imm | retf h | retfImm h imm | iret h =>
    exact runTable_keepsByte (Result.keepsView_jump rfl)
  | jmpRm h => exact runRmTable_keepsByte fun _ _ _ => Result.keepsView_jump rfl
  | jmpFarRm h =>
    exact runRmTable_keepsByte fun _ _ _ => Result.keepsView_withMemory fun _ _ => Result.keepsView_jump rfl
  | movs h | stos h =>
    exact runTable_keepsByte (Result.keepsView_done
      (read_congr (congrArg State.mem (State.runString_of_elementCount_zero he _ _))))
  | lods h =>
    exact runTable_keepsByte (Result.keepsView_done
      (read_congr (State.mem_runString (fun _ => State.mem_lodsElement) _)))
  | cmps h =>
    exact run_keepsByte (Result.keepsView_done (read_congr (State.mem_runString (fun _ => State.mem_cmpsElement) _)))
  | scas h =>
    exact run_keepsByte (Result.keepsView_done (read_congr (State.mem_runString (fun _ => State.mem_scasElement) _)))
  | popReg h => exact runTable_keepsByte (Result.keepsView_done (read_congr (State.setReg16_mem _ _ _)))
  | popSreg h q => exact runTable_keepsByte (Result.keepsView_done (read_congr (State.setSreg_mem _ _ _)))
  | into h =>
    have hof : ¬ s.flags.of := fun hof => by simp [pushCount, hof] at hp
    rw [exec, execInto, if_neg hof]
    exact runTable_keepsByte (Result.keepsView_done rfl)
  | inImm h port | inDx h | outImm h port | outDx h | reservedMember h =>
    exact run_keepsByte (Result.keepsView_raise _ _ _)
  | reservedOpcode h | reservedWait h | reservedLock h | reservedEsc h =>
    exact finish_keepsView (mem_passBlind a) (Result.keepsView_raise _ _ _)
  | pushReg h | pushSreg h q | pushRm h | pushf h | callRel h rel | callRm h | callFar h off seg | callFarRm h | int3 h
  | int h vector => cases hp

/-- Settles O57, instruction by instruction. -/
theorem operandStoresKeepOtherBytes : Obligations.OperandStoresKeepOtherBytes :=
  fun i s t a ht hw he hp hn hs => exec_keepsByte i s a ht hw hp hn hs t he

end Sys2Proof.Machine
end

section
/-! The opcode map row by row, and what the decoder reads behind the head (30_encoding.md R92, R110, R119, R121). -/

namespace Sys2Proof

open Sys2Proof.Laws Sys2Proof.Spec

/-! ### The rows of the opcode map -/

/-- The class that the opcode map gives the first byte `k` (30_encoding.md R121). -/
def classAt (k : Nat) : Nat := (lookup tRef.xlatOpcode (BitVec.ofNat 8 k)).toNat

/-- The subfunction that the opcode map gives the first byte `k` (30_encoding.md R121). -/
def subAt (k : Nat) : Nat := (lookup tRef.xlatSubfunction (BitVec.ofNat 8 k)).toNat

theorem mapped_classAt (op : Byte) : mapped op (classAt op.toNat) (subAt op.toNat) := by
  simp [mapped, classAt, subAt]

/-- The first bytes `lo .. hi` have one class, with a handler, and one subfunction. -/
def isMapRow (lo hi : Nat) : Bool :=
  hasHandler (classAt lo) &&
    (List.range (hi + 1 - lo)).all fun k =>
      Nat.beq (classAt (lo + k)) (classAt lo) && Nat.beq (subAt (lo + k)) (subAt lo)

theorem mapped_of_isMapRow {h : Head} {lo hi : Nat} (ho : h.opIn lo hi = true) (hr : isMapRow lo hi = true) :
    mapped h.op (classAt lo) (subAt lo) := by
  simp only [Head.opIn, Bool.and_eq_true, decide_eq_true_eq] at ho
  have hk := List.all_eq_true.mp (both hr).2 (h.op.toNat - lo) (by simp; omega)
  rw [show lo + (h.op.toNat - lo) = h.op.toNat by omega] at hk
  have hm := mapped_classAt h.op
  rwa [Nat.eq_of_beq_eq_true (both hk).1, Nat.eq_of_beq_eq_true (both hk).2] at hm

theorem decode_of_mapped {x : Window} {c k : Nat} (hm : mapped x.b0 c k) (hc : hasHandler c = true) :
    decode tRef x = decodeClass (decodeHead tRef x) c k x := by
  obtain ⟨rfl, rfl⟩ := hm
  simp only [decode, hc, if_true]

theorem decode_of_noHandler {x : Window} (hc : hasHandler (lookup tRef.xlatOpcode x.b0).toNat = false) :
    decode tRef x = decodeNoHandler x.b0 := by
  simp only [decode, hc, Bool.false_eq_true, if_false]

/-! ### The head and the bytes behind it -/

/-- Every well-formed instruction has a ModRM byte exactly when the tables give its opcode byte one (30_encoding.md R94,
R124). -/
theorem headShape_of_wellFormed (i : Instr) : Shape.Statement i :=
  match i with
  | .addRmReg h => Shape.addRmReg h | .addAccImm h imm => Shape.addAccImm h imm
  | .addRmImm h imm => Shape.addRmImm h imm | .orRmReg h => Shape.orRmReg h | .orAccImm h imm => Shape.orAccImm h imm
  | .orRmImm h imm => Shape.orRmImm h imm | .adcRmReg h => Shape.adcRmReg h
  | .adcAccImm h imm => Shape.adcAccImm h imm | .adcRmImm h imm => Shape.adcRmImm h imm
  | .sbbRmReg h => Shape.sbbRmReg h | .sbbAccImm h imm => Shape.sbbAccImm h imm
  | .sbbRmImm h imm => Shape.sbbRmImm h imm | .andRmReg h => Shape.andRmReg h
  | .andAccImm h imm => Shape.andAccImm h imm | .andRmImm h imm => Shape.andRmImm h imm
  | .subRmReg h => Shape.subRmReg h | .subAccImm h imm => Shape.subAccImm h imm
  | .subRmImm h imm => Shape.subRmImm h imm | .xorRmReg h => Shape.xorRmReg h
  | .xorAccImm h imm => Shape.xorAccImm h imm | .xorRmImm h imm => Shape.xorRmImm h imm
  | .cmpRmReg h => Shape.cmpRmReg h | .cmpAccImm h imm => Shape.cmpAccImm h imm
  | .cmpRmImm h imm => Shape.cmpRmImm h imm | .movRmReg h => Shape.movRmReg h
  | .movRegImm h imm => Shape.movRegImm h imm | .movRmImm h imm => Shape.movRmImm h imm
  | .movMoffs h addr => Shape.movMoffs h addr | .movRmSreg h => Shape.movRmSreg h | .movSregRm h => Shape.movSregRm h
  | .xchgRmReg h => Shape.xchgRmReg h | .xchgAx h => Shape.xchgAx h | .nop h => Shape.nop h | .lea h => Shape.lea h
  | .les h => Shape.les h | .lds h => Shape.lds h | .xlat h => Shape.xlat h | .cbw h => Shape.cbw h
  | .cwd h => Shape.cwd h | .incReg h => Shape.incReg h | .incRm h => Shape.incRm h | .decReg h => Shape.decReg h
  | .decRm h => Shape.decRm h | .neg h => Shape.neg h | .mul h => Shape.mul h | .imul h => Shape.imul h
  | .div h => Shape.div h | .idiv h => Shape.idiv h | .daa h => Shape.daa h | .das h => Shape.das h
  | .aaa h => Shape.aaa h | .aas h => Shape.aas h | .aam h imm => Shape.aam h imm | .aad h imm => Shape.aad h imm
  | .not h => Shape.not h | .testRmReg h => Shape.testRmReg h | .testAccImm h imm => Shape.testAccImm h imm
  | .testRmImm h imm => Shape.testRmImm h imm | .rolOne h => Shape.rolOne h | .rolCl h => Shape.rolCl h
  | .rorOne h => Shape.rorOne h | .rorCl h => Shape.rorCl h | .rclOne h => Shape.rclOne h | .rclCl h => Shape.rclCl h
  | .rcrOne h => Shape.rcrOne h | .rcrCl h => Shape.rcrCl h | .shlOne h => Shape.shlOne h | .shlCl h => Shape.shlCl h
  | .shrOne h => Shape.shrOne h | .shrCl h => Shape.shrCl h | .sarOne h => Shape.sarOne h | .sarCl h => Shape.sarCl h
  | .jo h rel => Shape.jo h rel | .jno h rel => Shape.jno h rel | .jb h rel => Shape.jb h rel
  | .jnb h rel => Shape.jnb h rel | .jz h rel => Shape.jz h rel | .jnz h rel => Shape.jnz h rel
  | .jbe h rel => Shape.jbe h rel | .jnbe h rel => Shape.jnbe h rel | .js h rel => Shape.js h rel
  | .jns h rel => Shape.jns h rel | .jp h rel => Shape.jp h rel | .jnp h rel => Shape.jnp h rel
  | .jl h rel => Shape.jl h rel | .jnl h rel => Shape.jnl h rel | .jle h rel => Shape.jle h rel
  | .jnle h rel => Shape.jnle h rel | .jmpRel8 h rel => Shape.jmpRel8 h rel | .jmpRel16 h rel => Shape.jmpRel16 h rel
  | .jmpFar h off seg => Shape.jmpFar h off seg | .jmpRm h => Shape.jmpRm h | .jmpFarRm h => Shape.jmpFarRm h
  | .callRel h rel => Shape.callRel h rel | .callFar h off seg => Shape.callFar h off seg
  | .callRm h => Shape.callRm h | .callFarRm h => Shape.callFarRm h | .ret h => Shape.ret h
  | .retImm h imm => Shape.retImm h imm | .retf h => Shape.retf h | .retfImm h imm => Shape.retfImm h imm
  | .iret h => Shape.iret h | .loopnz h rel => Shape.loopnz h rel | .loopz h rel => Shape.loopz h rel
  | .loop h rel => Shape.loop h rel | .jcxz h rel => Shape.jcxz h rel | .movs h => Shape.movs h
  | .stos h => Shape.stos h | .lods h => Shape.lods h | .cmps h => Shape.cmps h | .scas h => Shape.scas h
  | .pushReg h => Shape.pushReg h | .pushSreg h r => Shape.pushSreg h r | .pushRm h => Shape.pushRm h
  | .popReg h => Shape.popReg h | .popSreg h r => Shape.popSreg h r | .popRm h => Shape.popRm h
  | .pushf h => Shape.pushf h | .popf h => Shape.popf h | .clc h => Shape.clc h | .stc h => Shape.stc h
  | .cli h => Shape.cli h | .sti h => Shape.sti h | .cld h => Shape.cld h | .std h => Shape.std h
  | .cmc h => Shape.cmc h | .lahf h => Shape.lahf h | .sahf h => Shape.sahf h | .inImm h port => Shape.inImm h port
  | .inDx h => Shape.inDx h | .outImm h port => Shape.outImm h port | .outDx h => Shape.outDx h
  | .seg h r => Shape.seg h r | .repnz h => Shape.repnz h | .repz h => Shape.repz h | .int3 h => Shape.int3 h
  | .int h vector => Shape.int h vector | .into h => Shape.into h | .hlt h => Shape.hlt h
  | .reservedOpcode h => Shape.reservedOpcode h | .reservedWait h => Shape.reservedWait h
  | .reservedLock h => Shape.reservedLock h | .reservedEsc h => Shape.reservedEsc h
  | .reservedMember h => Shape.reservedMember h

theorem decodeHead_encode {i : Instr} (hw : i.wellFormed = true) (rest : List Byte) :
    decodeHead tRef (Window.ofBytes (encode i ++ rest)) = i.head := by
  obtain ⟨hp, hm⟩ := headShape_of_wellFormed i hw
  rw [encode, List.append_assoc]
  exact decodeHead_encodeHead tRef hp hm _

@[simp] theorem Window.b0_encode (i : Instr) (rest : List Byte) :
    (Window.ofBytes (encode i ++ rest)).b0 = i.head.op := by
  rw [encode, List.append_assoc, Window.b0_encodeHead]

/-- The operand bytes of an instruction are read where `Head.immAt` says (30_encoding.md R110). -/
theorem Window.at_encode (i : Instr) (rest : List Byte) {k : Nat} (hk : i.head.immAt + k < 6) :
    (Window.ofBytes (encode i ++ rest)).at (i.head.immAt + k) = (i.tail ++ rest).getD k 0 := by
  rw [encode, List.append_assoc]
  exact Window.at_immAt i.head _ hk

theorem mkWord_loByte_zero {imm : Word} (hf : immFits .byte imm = true) : mkWord (loByte imm) 0 = imm := by
  have hlt : imm.toNat < 256 := of_decide_eq_true hf
  have hhi : hiByte imm = 0 := by
    apply BitVec.eq_of_toNat_eq
    simp [hiByte, Nat.shiftRight_eq_div_pow, Nat.div_eq_of_lt hlt]
  rw [← hhi, mkWord_loByte_hiByte]

/-- An immediate behind the head is read back with the width it is stored with (30_encoding.md R110). -/
theorem Window.imm_encode {i : Instr} {w : Width} {imm : Word} (ht : i.tail = immBytes w imm)
    (hf : immFits w imm = true) (rest : List Byte) :
    (Window.ofBytes (encode i ++ rest)).imm w i.head.immAt = imm := by
  have hle := immAt_le i.head
  have h0 := Window.at_encode i rest (k := 0) (by omega)
  have h1 := Window.at_encode i rest (k := 1) (by omega)
  rw [ht] at h0 h1
  cases w with
  | byte =>
    simp only [Window.imm]
    exact (congrArg (mkWord · 0) h0).trans (mkWord_loByte_zero hf)
  | word =>
    simp only [Window.imm, Window.word]
    exact (congrArg₂ mkWord h0 h1).trans (mkWord_loByte_hiByte imm)

theorem Head.eq_of_noRm {h : Head} (hn : h.noRm = true) : ∃ op, h = ⟨op, none⟩ := by
  obtain ⟨op, m⟩ := h
  cases m with
  | none => exact ⟨op, rfl⟩
  | some m => cases hn

theorem Head.eq_of_hasDigit {h : Head} {k : BitVec 3} (hd : h.hasDigit k = true) :
    ∃ op ea, h = ⟨op, some ⟨k, ea⟩⟩ := by
  obtain ⟨op, m⟩ := h
  cases m with
  | none => cases hd
  | some m => exact ⟨op, m.ea, by rw [← beq_iff_eq.mp (both hd).2]⟩

theorem Head.eq_of_is {h : Head} {op : Byte} (ho : h.opIs op = true) (hn : h.noRm = true) : h = ⟨op, none⟩ := by
  obtain ⟨b, rfl⟩ := Head.eq_of_noRm hn
  rw [show b = op from beq_iff_eq.mp ho]

theorem Head.opIn_split {h : Head} {lo hi : Nat} (mid : Nat) (ho : h.opIn lo hi = true) :
    h.opIn lo mid = true ∨ h.opIn (mid + 1) hi = true := by
  simp only [Head.opIn, Bool.and_eq_true, decide_eq_true_eq] at ho ⊢
  omega

theorem Head.digit_of_hasSreg {h : Head} (hs : h.hasSreg = true) : ∃ d < 4, h.digit = some d := by
  obtain ⟨op, m⟩ := h
  cases m with
  | none => cases hs
  | some m => exact ⟨m.reg.toNat, of_decide_eq_true (both hs).2, rfl⟩

end Sys2Proof
end

section
/-! The decoder reads back every well-formed instruction (O1). -/

namespace Sys2Proof

open Sys2Proof.Laws Sys2Proof.Spec

/-- An instruction is read back when the class of its opcode byte makes it of its head and its bytes. -/
theorem decode_encode_in {i : Instr} {h : Head} {rest : List Byte} {lo hi : Nat} (hw : i.wellFormed = true)
    (ho : h.opIn lo hi = true) (hh : i.head = h) (hr : isMapRow lo hi = true)
    (hc : decodeClass h (classAt lo) (subAt lo) (Window.ofBytes (encode i ++ rest)) = i) :
    decode tRef (Window.ofBytes (encode i ++ rest)) = i := by
  subst hh
  have hm := mapped_of_isMapRow ho hr
  rw [← Window.b0_encode i rest] at hm
  rw [decode_of_mapped hm (both hr).1, decodeHead_encode hw, hc]

theorem decode_encode_is {i : Instr} {h : Head} {rest : List Byte} {op : Byte} (hw : i.wellFormed = true)
    (ho : h.opIs op = true) (hh : i.head = h) (hr : isMapRow op.toNat op.toNat = true)
    (hc : decodeClass h (classAt op.toNat) (subAt op.toNat) (Window.ofBytes (encode i ++ rest)) = i) :
    decode tRef (Window.ofBytes (encode i ++ rest)) = i := decode_encode_in hw (opIn_of_is ho) hh hr hc

/-- Class 10: a `reg` field below 4 is a segment register (30_encoding.md R130). -/
theorem decodeGroup8c_sreg {h : Head} (hs : h.hasSreg = true) :
    decodeGroup8c h 0 = .movRmSreg h ∧ decodeGroup8c h 2 = .movSregRm h := by
  obtain ⟨d, hd, hdig⟩ := Head.digit_of_hasSreg hs
  simp [decodeGroup8c, hdig, hd]

/-- Class 10: a `reg` field from 4 on is no segment register, and POP has `/0` only (30_encoding.md R131). -/
theorem decodeGroup8c_reserved {h : Head} {d : Nat} (hdig : h.digit = some d) :
    (4 ≤ d → decodeGroup8c h 0 = .reservedMember h ∧ decodeGroup8c h 2 = .reservedMember h) ∧
      (1 ≤ d → decodeGroup8c h 3 = .reservedMember h) := by
  refine ⟨fun hd => ?_, fun hd => ?_⟩
  · simp [decodeGroup8c, hdig, Nat.not_lt.mpr hd]
  · obtain ⟨n, rfl⟩ := Nat.exists_eq_add_of_le' hd
    simp [decodeGroup8c, hdig]

/-- Class 5 with an even opcode byte, FE: all digits but 0 and 1 are reserved (30_encoding.md R131). -/
theorem decodeGroupFe_reserved {h : Head} {d : Nat} (hb : h.op.getLsbD 0 = false) (hdig : h.digit = some d)
    (hd : 2 ≤ d) : decodeGroupFe h = .reservedMember h := by
  obtain ⟨n, rfl⟩ := Nat.exists_eq_add_of_le' hd
  unfold decodeGroupFe
  rw [hb, hdig]
  split <;> simp_all

/-- 91 to 97 name a register other than AX, which has number 0 (30_encoding.md R129). -/
theorem opReg_ne_zero {h : Head} (ho : h.opIn 0x91 0x97 = true) : h.opReg ≠ 0 := by
  have key : ∀ op : Byte, Head.opIn ⟨op, none⟩ 0x91 0x97 = true → Head.opReg ⟨op, none⟩ ≠ 0 := by decide +kernel
  exact key h.op ho

/-- An instruction of an opcode byte without a handler is read back (30_encoding.md R131). -/
theorem decode_encode_noHandler {h : Head} {f : Head → Instr} {rest : List Byte} (p : Head → Bool)
    (hp : p h = true) (hn : h.noRm = true) (hf : (f h).head = h)
    (t : ∀ op : Byte, p ⟨op, none⟩ = true →
      hasHandler (lookup tRef.xlatOpcode op).toNat = false ∧ decodeNoHandler op = f ⟨op, none⟩) :
    decode tRef (Window.ofBytes (encode (f h) ++ rest)) = f h := by
  obtain ⟨op, rfl⟩ := Head.eq_of_noRm hn
  have hb : (Window.ofBytes (encode (f ⟨op, none⟩) ++ rest)).b0 = op := by rw [Window.b0_encode, hf]
  obtain ⟨hc, hd⟩ := t op hp
  exact (decode_of_noHandler (by rw [hb, hc])).trans (by rw [hb, hd])

/-- A reserved group member is read back, by the group of its opcode byte (30_encoding.md R131). -/
theorem decode_encode_reservedMember (h : Head) (rest : List Byte) (hw : (Instr.reservedMember h).wellFormed = true) :
    decode tRef (Window.ofBytes (encode (.reservedMember h) ++ rest)) = .reservedMember h := by
  obtain ⟨op, _ | ⟨reg, ea⟩⟩ := h
  · cases hw
  have hm : Head.isReservedMember ⟨op, some ⟨reg, ea⟩⟩ = true := hw
  simp only [Head.isReservedMember, Bool.and_eq_true, Bool.or_eq_true, decide_eq_true_eq, beq_iff_eq] at hm
  rcases hm.2 with ((((⟨ho | ho, hd⟩ | ⟨ho | ho, hd⟩) | ⟨ho, rfl⟩) | ⟨ho, rfl⟩) | ⟨ho, hd⟩) | ⟨ho, rfl⟩
  · exact decode_encode_is hw ho rfl rfl ((decodeGroup8c_reserved (h := ⟨op, some ⟨reg, ea⟩⟩) rfl).1 hd).1
  · exact decode_encode_is hw ho rfl rfl ((decodeGroup8c_reserved (h := ⟨op, some ⟨reg, ea⟩⟩) rfl).1 hd).2
  · exact decode_encode_is hw ho rfl rfl ((decodeGroup8c_reserved (h := ⟨op, some ⟨reg, ea⟩⟩) rfl).2 hd)
  · exact decode_encode_in hw ho rfl rfl (if_neg fun hc => Nat.ne_of_gt hd (Option.some.inj hc.2))
  · rcases Head.opIn_split 0xD1 ho with ho | ho
    · exact decode_encode_in hw ho rfl rfl rfl
    · exact decode_encode_in hw ho rfl rfl rfl
  · exact decode_encode_in hw ho rfl rfl rfl
  · obtain rfl : op = _ := beq_iff_eq.mp ho
    exact decode_encode_is hw ho rfl rfl (decodeGroupFe_reserved (by simp) rfl hd)
  · obtain rfl : op = _ := beq_iff_eq.mp ho
    exact decode_encode_is hw ho rfl rfl rfl

/-- Every well-formed instruction is read back, by the row of its opcode byte in the map and the format of its operand
bytes (30_encoding.md R129 to R131). -/
theorem decode_encode (i : Instr) (rest : List Byte) (hw : i.wellFormed = true) :
    decode tRef (Window.ofBytes (encode i ++ rest)) = i := by
  cases i with
  | addRmReg h | orRmReg h | adcRmReg h | sbbRmReg h | andRmReg h | subRmReg h | xorRmReg h | cmpRmReg h | movRmReg h
  | xchgRmReg h | testRmReg h => exact decode_encode_in hw (both hw).1 rfl rfl rfl
  | lea h | les h | lds h => exact decode_encode_is hw (both hw).1 rfl rfl rfl
  | addAccImm h imm | orAccImm h imm | adcAccImm h imm | sbbAccImm h imm | andAccImm h imm | subAccImm h imm
  | xorAccImm h imm | cmpAccImm h imm | movRegImm h imm | testAccImm h imm =>
    obtain ⟨⟨ho, hn⟩, hf⟩ := (both hw).imp_left both
    obtain ⟨op, rfl⟩ := Head.eq_of_noRm hn
    exact decode_encode_in hw ho rfl rfl (congrArg _ (Window.imm_encode rfl hf rest))
  | addRmImm h imm | orRmImm h imm | adcRmImm h imm | sbbRmImm h imm | andRmImm h imm | subRmImm h imm
  | xorRmImm h imm | cmpRmImm h imm | testRmImm h imm | movRmImm h imm =>
    obtain ⟨⟨ho, hd⟩, hf⟩ := (both hw).imp_left both
    obtain ⟨op, ea, rfl⟩ := Head.eq_of_hasDigit hd
    exact decode_encode_in hw ho rfl rfl (congrArg _ (Window.imm_encode rfl hf rest))
  | incRm h | decRm h | neg h | mul h | imul h | div h | idiv h | not h | rolOne h | rolCl h | rorOne h | rorCl h
  | rclOne h | rclCl h | rcrOne h | rcrCl h | shlOne h | shlCl h | shrOne h | shrCl h | sarOne h | sarCl h =>
    obtain ⟨op, ea, rfl⟩ := Head.eq_of_hasDigit (both hw).2
    exact decode_encode_in hw (both hw).1 rfl rfl rfl
  | xchgAx h => exact decode_encode_in hw (both hw).1 rfl rfl (if_neg (opReg_ne_zero (both hw).1))
  | movMoffs h v =>
    obtain ⟨ho, hn⟩ := both hw
    obtain ⟨op, rfl⟩ := Head.eq_of_noRm hn
    exact decode_encode_in hw ho rfl rfl (congrArg _ (mkWord_loByte_hiByte v))
  | incReg h | decReg h | pushReg h | popReg h | movs h | stos h | lods h | cmps h | scas h | inDx h | outDx h
  | inImm h b | outImm h b =>
    obtain ⟨ho, hn⟩ := both hw
    obtain ⟨op, rfl⟩ := Head.eq_of_noRm hn
    exact decode_encode_in hw ho rfl rfl rfl
  | xlat h | cbw h | cwd h | daa h | das h | aaa h | aas h | ret h | retf h | iret h | pushf h | popf h | clc h | stc h
  | cli h | sti h | cld h | std h | cmc h | lahf h | sahf h | repnz h | repz h | int3 h | into h | hlt h | nop h
  | aam h b | aad h b | int h b | jo h b | jno h b | jb h b | jnb h b | jz h b | jnz h b | jbe h b | jnbe h b | js h b
  | jns h b | jp h b | jnp h b | jl h b | jnl h b | jle h b | jnle h b | jmpRel8 h b | loopnz h b | loopz h b | loop h b
  | jcxz h b =>
    obtain ⟨ho, hn⟩ := both hw
    obtain rfl := Head.eq_of_is ho hn
    exact decode_encode_is hw ho rfl rfl rfl
  | jmpRel16 h v | callRel h v | retImm h v | retfImm h v =>
    obtain ⟨ho, hn⟩ := both hw
    obtain rfl := Head.eq_of_is ho hn
    exact decode_encode_is hw ho rfl rfl (congrArg _ (mkWord_loByte_hiByte v))
  | jmpFar h off sg | callFar h off sg =>
    obtain ⟨ho, hn⟩ := both hw
    obtain rfl := Head.eq_of_is ho hn
    exact decode_encode_is hw ho rfl rfl (congrArg₂ _ (mkWord_loByte_hiByte off) (mkWord_loByte_hiByte sg))
  | popRm h =>
    obtain ⟨ho, hd⟩ := both hw
    obtain ⟨op, ea, rfl⟩ := Head.eq_of_hasDigit hd
    exact decode_encode_is hw ho rfl rfl rfl
  | jmpRm h | jmpFarRm h | callRm h | callFarRm h | pushRm h =>
    obtain ⟨ho, hd⟩ := both hw
    obtain ⟨op, ea, rfl⟩ := Head.eq_of_hasDigit hd
    obtain rfl : op = _ := beq_iff_eq.mp ho
    exact decode_encode_is hw ho rfl rfl (show decodeGroupFe _ = _ by simp [decodeGroupFe, Head.digit])
  | movRmSreg h => exact decode_encode_is hw (both hw).1 rfl rfl (decodeGroup8c_sreg (both hw).2).1
  | movSregRm h => exact decode_encode_is hw (both hw).1 rfl rfl (decodeGroup8c_sreg (both hw).2).2
  | pushSreg h r | seg h r => cases r <;> exact decode_encode_is hw (both hw).1 rfl rfl rfl
  | popSreg h r =>
    have ho := (both (both hw).1).1
    cases r with
    | cs => cases (both (both hw).1).2
    | es | ss | ds => exact decode_encode_is hw ho rfl rfl rfl
  | reservedOpcode h =>
    exact decode_encode_noHandler Head.isReservedByte (both hw).1 (both hw).2 rfl (by decide +kernel)
  | reservedWait h => exact decode_encode_noHandler (·.opIs 0x9B) (both hw).1 (both hw).2 rfl (by decide +kernel)
  | reservedLock h => exact decode_encode_noHandler (·.opIs 0xF0) (both hw).1 (both hw).2 rfl (by decide +kernel)
  | reservedEsc h => exact decode_encode_noHandler (·.opIn 0xD8 0xDF) (both hw).1 (both hw).2 rfl (by decide +kernel)
  | reservedMember h => exact decode_encode_reservedMember h rest hw

/-- Settles O1, instruction by instruction. -/
theorem decodeOfEncodeIsTheInstruction : Obligations.DecodeOfEncodeIsTheInstruction :=
  fun i rest hw => decode_encode i rest hw

end Sys2Proof
end

section
/-! What the decoder makes of a window: which instruction it is and whether it is well formed is a matter of the opcode byte
and the `reg` field, and its bytes are those of the window (O2). -/

namespace Sys2Proof

open Sys2Proof.Laws Sys2Proof.Spec

/-! ### The bytes of a window -/

theorem Window.word_prefix (x : Window) {k : Nat} (hk : k ≤ 4) : wordBytes (x.word k) <+: x.toBytes.drop k := by
  have hb : wordBytes (x.word k) = [x.at k, x.at (k + 1)] := by simp [wordBytes, Window.word]
  rw [hb]
  interval_cases k <;> exact ⟨_, rfl⟩

theorem Window.imm_prefix (x : Window) (w : Width) {k : Nat} (hk : k ≤ 4) :
    immBytes w (x.imm w k) <+: x.toBytes.drop k := by
  cases w with
  | byte =>
    have hb : immBytes .byte (x.imm .byte k) = [x.at k] := by simp [immBytes, Window.imm]
    rw [hb]
    interval_cases k <;> exact ⟨_, rfl⟩
  | word => exact x.word_prefix hk

/-- An immediate fits the width it is read with (30_encoding.md R110). -/
theorem immFits_imm (x : Window) (w : Width) (k : Nat) : immFits w (x.imm w k) = true := by
  refine decide_eq_true ?_
  cases w with
  | byte =>
    have h0 : (x.imm .byte k).toNat = (x.at k).toNat := by
      rw [Window.imm, mkWord, BitVec.toNat_append]
      simp
    rw [h0]
    exact (x.at k).isLt
  | word => exact (x.imm .word k).isLt

theorem decodeEa_wellFormed (x : Window) : (decodeEa x).wellFormed = true := by
  simp only [decodeEa]
  split
  · split
    · rfl
    · next hrm => simpa [RM.wellFormed] using hrm
  all_goals rfl

theorem decodeEa_fields (x : Window) : (decodeEa x).fields = (modField x.b1, rmField x.b1) := by
  have hm : ∀ n : BitVec 2, n = 0 ∨ n = 1 ∨ n = 2 ∨ n = 3 := by decide
  simp only [decodeEa]
  rcases hm (modField x.b1) with e | e | e | e <;> rw [e]
  · show (if rmField x.b1 = 6 then _ else _ : RM).fields = _
    split
    · next hrm => rw [hrm]; rfl
    · rfl
  all_goals rfl

theorem decodeEa_dispList (x : Window) : (decodeEa x).dispList <+: x.toBytes.drop 2 := by
  simp only [decodeEa]
  split
  · split
    · exact x.word_prefix (by omega)
    · exact List.nil_prefix
  · exact ⟨_, rfl⟩
  · exact x.word_prefix (by omega)
  · exact List.nil_prefix

/-- The head that the decoder reads has the first bytes of the window (30_encoding.md R94). -/
theorem encodeHead_decodeHead (T : Tables) (x : Window) : encodeHead (decodeHead T x) <+: x.toBytes := by
  unfold decodeHead
  split
  · exact ⟨_, rfl⟩
  · simp only [encodeHead, decodeEa_fields, modrmByte_of_fields]
    exact (List.prefix_append_right_inj [x.b0, x.b1]).mpr (decodeEa_dispList x)

/-! ### The rows of the map as a list -/

/-- The opcode map: the class and the subfunction of each first byte (30_encoding.md R121). -/
def opcodeRows : List ((Byte × Byte) × Nat) := (xlatOpcodeRows.zip xlatSubfunctionRows).zipIdx

theorem mem_zipIdx_zip {l m : List Byte} {n : Nat} (hl : n < l.length) (hm : n < m.length) :
    ((l[n], m[n]), n) ∈ (l.zip m).zipIdx := by
  rw [List.mk_mem_zipIdx_iff_getElem?]
  exact List.getElem?_zip_eq_some.mpr ⟨List.getElem?_eq_getElem hl, List.getElem?_eq_getElem hm⟩

theorem mem_opcodeRows (op : Byte) :
    ((lookup tRef.xlatOpcode op, lookup tRef.xlatSubfunction op), op.toNat) ∈ opcodeRows := by
  have e1 : lookup tRef.xlatOpcode op = _ := lookup_rows xlatOpcodeRows_length op
  have e2 : lookup tRef.xlatSubfunction op = _ := lookup_rows xlatSubfunctionRows_length op
  rw [e1, e2]
  exact mem_zipIdx_zip _ _

/-- A head with the first byte `n` and the field `reg`, where the tables give the byte a ModRM byte. -/
def sampleHead (n : Nat) (reg : BitVec 3) : Head :=
  ⟨BitVec.ofNat 8 n, if modSize n = 0 then none else some ⟨reg, .reg 0⟩⟩

/-- The classes whose operand bytes stand behind the opcode byte (30_encoding.md R110, R111). -/
def classesBehindOpcode : List Nat := [0, 1, 7, 11, 13, 14, 19, 21, 22, 32, 39, 41, 42, 47]

/-- Seen row by row: what the map makes of a sample head is well formed (30_encoding.md R129 to R131). -/
theorem wellFormed_sample : ∀ r ∈ opcodeRows, hasHandler r.1.1.toNat = true → ∀ reg : BitVec 3,
    (decodeClass (sampleHead r.2 reg) r.1.1.toNat r.1.2.toNat (Window.ofBytes [])).wellFormed = true := by
  decide +kernel

theorem wellFormed_noHandler : ∀ r ∈ opcodeRows, hasHandler r.1.1.toNat = false →
    (decodeNoHandler (BitVec.ofNat 8 r.2)).wellFormed = true := by
  decide +kernel

theorem modSize_of_behindOpcode : ∀ r ∈ opcodeRows, r.1.1.toNat ∈ classesBehindOpcode → modSize r.2 = 0 := by
  decide +kernel

/-! ### Heads with one opcode byte and one `reg` field -/

/-- Two heads that agree in all that the choice of the constructor and its well-formedness depend on. -/
structure SameForm (h g : Head) : Prop where
  op : h.op = g.op
  digit : h.digit = g.digit
  noRm : h.noRm = g.noRm
  hasRm : h.hasRm = g.hasRm
  hasDigit (k : BitVec 3) : h.hasDigit k = g.hasDigit k
  hasSreg : h.hasSreg = g.hasSreg
  isReservedMember : h.isReservedMember = g.isReservedMember

/-- The operand of a ModRM byte makes no difference to the form. -/
theorem sameForm_ea {ea : RM} (hw : ea.wellFormed = true) (op : Byte) (reg rm : BitVec 3) :
    SameForm ⟨op, some ⟨reg, ea⟩⟩ ⟨op, some ⟨reg, .reg rm⟩⟩ := by
  have hr : (RM.reg rm).wellFormed = true := rfl
  constructor <;> intros <;>
    simp only [Head.digit, Head.noRm, Head.hasRm, Head.hasDigit, Head.hasSreg, Head.isReservedMember, Head.opIs,
      Head.opIn, Option.map, Option.isNone, hw, hr]

theorem sameForm_sampleHead (x : Window) :
    SameForm (decodeHead tRef x) (sampleHead x.b0.toNat (regField x.b1)) := by
  have hz : lookup tRef.iModSize x.b0 = 0 ↔ modSize x.b0.toNat = 0 := by
    rw [← lookup_iModSize, ← BitVec.toNat_inj]; rfl
  simp only [decodeHead, sampleHead, hz, BitVec.ofNat_toNat, BitVec.setWidth_eq]
  split
  · constructor <;> intros <;> rfl
  · exact sameForm_ea (decodeEa_wellFormed x) _ _ _

theorem immFits_congr (x y : Window) (w v : Width) (k l : Nat) :
    immFits w (x.imm w k) = immFits v (y.imm v l) := by rw [immFits_imm, immFits_imm]

section
variable {h g : Head} {x y : Window} {bs : List Byte} {k : Nat}

/-- `i` has the head `h` and operand bytes with which `bs` starts, and is well formed exactly if `j` is. -/
structure ReadsAs (bs : List Byte) (h : Head) (i j : Instr) : Prop where
  head : i.head = h
  tail : i.tail <+: bs
  wf : i.wellFormed = j.wellFormed

theorem ReadsAs.bare {i j : Instr} (hw : i.wellFormed = j.wellFormed) (hh : i.head = h := by rfl)
    (ht : i.tail = [] := by rfl) : ReadsAs bs h i j := ⟨hh, ht ▸ List.nil_prefix, hw⟩

namespace SameForm

theorem opIn (s : SameForm h g) (lo hi : Nat) : h.opIn lo hi = g.opIn lo hi := by simp only [Head.opIn, s.op]
theorem opIs (s : SameForm h g) (op : Byte) : h.opIs op = g.opIs op := by simp only [Head.opIs, s.op]

theorem in_noRm (s : SameForm h g) {lo hi : Nat} : (h.opIn lo hi && h.noRm) = (g.opIn lo hi && g.noRm) :=
  congrArg₂ and (s.opIn lo hi) s.noRm
theorem is_noRm (s : SameForm h g) {op : Byte} : (h.opIs op && h.noRm) = (g.opIs op && g.noRm) :=
  congrArg₂ and (s.opIs op) s.noRm
theorem in_hasRm (s : SameForm h g) {lo hi : Nat} : (h.opIn lo hi && h.hasRm) = (g.opIn lo hi && g.hasRm) :=
  congrArg₂ and (s.opIn lo hi) s.hasRm
theorem is_hasRm (s : SameForm h g) {op : Byte} : (h.opIs op && h.hasRm) = (g.opIs op && g.hasRm) :=
  congrArg₂ and (s.opIs op) s.hasRm
theorem in_hasDigit (s : SameForm h g) {lo hi : Nat} {d : BitVec 3} :
    (h.opIn lo hi && h.hasDigit d) = (g.opIn lo hi && g.hasDigit d) := congrArg₂ and (s.opIn lo hi) (s.hasDigit d)

theorem readsAs_reservedMember (s : SameForm h g) : ReadsAs bs h (.reservedMember h) (.reservedMember g) :=
  .bare s.isReservedMember

theorem readsAs_decodeJcc (s : SameForm h g) {rel rel' : Byte} (hb : [rel] <+: bs) :
    ReadsAs bs h (decodeJcc h rel) (decodeJcc g rel') := by
  simp only [decodeJcc, s.op]
  split <;> exact ⟨rfl, hb, s.is_noRm⟩

theorem readsAs_decodeAccImm (s : SameForm h g) {a b : Nat} (hb : immBytes h.width (x.imm h.width a) <+: bs) :
    ReadsAs bs h (decodeAccImm h k (x.imm h.width a)) (decodeAccImm g k (y.imm g.width b)) := by
  unfold decodeAccImm
  split
  case h_9 => exact s.readsAs_reservedMember
  all_goals exact ⟨rfl, hb, congrArg₂ and s.in_noRm (immFits_congr ..)⟩

theorem readsAs_decodeRmImm (s : SameForm h g) {a b : Nat} (hb : immBytes h.aluImmWidth (x.imm h.aluImmWidth a) <+: bs) :
    ReadsAs bs h (decodeRmImm h (x.imm h.aluImmWidth a)) (decodeRmImm g (y.imm g.aluImmWidth b)) := by
  simp only [decodeRmImm, s.digit]
  split
  case h_9 => exact s.readsAs_reservedMember
  all_goals exact ⟨rfl, hb, congrArg₂ and s.in_hasDigit (immFits_congr ..)⟩

theorem readsAs_decodeRmReg (s : SameForm h g) : ReadsAs bs h (decodeRmReg h k) (decodeRmReg g k) := by
  unfold decodeRmReg
  split
  case h_10 => exact s.readsAs_reservedMember
  all_goals exact .bare s.in_hasRm

theorem readsAs_decodeGroupFe (s : SameForm h g) : ReadsAs bs h (decodeGroupFe h) (decodeGroupFe g) := by
  simp only [decodeGroupFe, s.digit, s.op]
  split <;> exact .bare (by simp only [Instr.wellFormed, s.opIn, s.opIs, s.hasDigit, s.isReservedMember])

theorem readsAs_decodeGroupF6 (s : SameForm h g) {a b : Nat} (hb : immBytes h.width (x.imm h.width a) <+: bs) :
    ReadsAs bs h (decodeGroupF6 h (x.imm h.width a)) (decodeGroupF6 g (y.imm g.width b)) := by
  simp only [decodeGroupF6, s.digit]
  split
  case h_1 => exact ⟨rfl, hb, congrArg₂ and s.in_hasDigit (immFits_congr ..)⟩
  case h_8 => exact s.readsAs_reservedMember
  all_goals exact .bare s.in_hasDigit

theorem readsAs_decodeGroup8c (s : SameForm h g) : ReadsAs bs h (decodeGroup8c h k) (decodeGroup8c g k) := by
  simp only [decodeGroup8c, s.digit]
  split
  case h_1 | h_3 =>
    split
    · exact .bare (congrArg₂ and (s.opIs _) s.hasSreg)
    · exact s.readsAs_reservedMember
  case h_2 => exact .bare s.is_hasRm
  case h_4 => exact .bare (congrArg₂ and (s.opIs _) (s.hasDigit _))
  case h_5 => exact s.readsAs_reservedMember

theorem readsAs_decodeShift (s : SameForm h g) : ReadsAs bs h (decodeShift h k) (decodeShift g k) := by
  simp only [decodeShift, s.digit]
  split
  case h_15 => exact s.readsAs_reservedMember
  all_goals exact .bare s.in_hasDigit

theorem readsAs_decodeFlagOp (s : SameForm h g) : ReadsAs bs h (decodeFlagOp h k) (decodeFlagOp g k) := by
  simp only [decodeFlagOp, s.op]
  split
  case h_7 => exact s.readsAs_reservedMember
  all_goals exact .bare s.is_noRm

theorem readsAs_decodeSreg (s : SameForm h g) {f f' : SReg → Instr} (hf : ∀ r, ReadsAs bs h (f r) (f' r)) :
    ReadsAs bs h (decodeSreg h k f) (decodeSreg g k f') := by
  unfold decodeSreg
  split
  case h_5 => exact s.readsAs_reservedMember
  all_goals exact hf _

theorem readsAs_decodePopSreg (s : SameForm h g) : ReadsAs bs h (decodePopSreg h k) (decodePopSreg g k) := by
  unfold decodePopSreg
  split
  case h_4 => exact s.readsAs_reservedMember
  all_goals exact .bare (by simp only [Instr.wellFormed, s.opIs, s.noRm])

theorem readsAs_decodeMember (s : SameForm h g) {l m : List Instr} (hl : List.Forall₂ (ReadsAs bs h) l m) :
    ReadsAs bs h (decodeMember h k l) (decodeMember g k m) := by
  unfold decodeMember
  induction hl generalizing k with
  | nil => exact s.readsAs_reservedMember
  | cons ha _ ih =>
    cases k with
    | zero => exact ha
    | succ k => exact ih

end SameForm

theorem readsAs_ite {p q : Prop} [Decidable p] [Decidable q] {i i' j j' : Instr} (hpq : p ↔ q)
    (hi : ReadsAs bs h i j) (hj : ReadsAs bs h i' j') : ReadsAs bs h (if p then i else i') (if q then j else j') := by
  by_cases hp : p
  · rwa [if_pos hp, if_pos (hpq.mp hp)]
  · rwa [if_neg hp, if_neg (fun hq => hp (hpq.mpr hq))]

/-- Every class with a handler makes of the head `h` an instruction with the bytes that stand behind `h`. -/
theorem readsAs_decodeClass (s : SameForm h g) {c : Nat} (k : Nat) (hc : hasHandler c = true)
    (hop : c ∈ classesBehindOpcode → h.immAt = 1) :
    ReadsAs (x.toBytes.drop h.immAt) h (decodeClass h c k x) (decodeClass g c k y) := by
  have hrm := immAt_le h
  have behind : c ∈ classesBehindOpcode → ∀ {l}, l <+: x.toBytes.drop 1 → l <+: x.toBytes.drop h.immAt :=
    fun hm _ hl => by rwa [hop hm]
  have hb := fun hm => behind hm (l := [x.b1]) ⟨_, rfl⟩
  have hw := fun hm => behind hm (x.word_prefix (k := 1) (by omega))
  have hf := fun hm => behind hm (l := wordBytes (x.word 1) ++ wordBytes (x.word 3))
    ⟨[x.b5], by simp [Window.toBytes, wordBytes, Window.word, Window.at]⟩
  have hi := fun hm => behind hm (x.imm_prefix h.width (k := 1) (by omega))
  match c with
  | 0 => exact readsAs_ite .rfl (s.readsAs_decodeJcc (hb (by decide))) s.readsAs_reservedMember
  | 5 => exact readsAs_ite .rfl s.readsAs_decodeGroupFe s.readsAs_reservedMember
  | 6 => exact readsAs_ite .rfl (s.readsAs_decodeGroupF6 (x.imm_prefix _ hrm)) s.readsAs_reservedMember
  | 7 => exact s.readsAs_decodeAccImm (hi (by decide))
  | 8 => exact readsAs_ite .rfl (s.readsAs_decodeRmImm (x.imm_prefix _ hrm)) s.readsAs_reservedMember
  | 9 => exact s.readsAs_decodeRmReg
  | 10 => exact s.readsAs_decodeGroup8c
  | 12 => exact s.readsAs_decodeShift
  | 20 =>
    exact readsAs_ite (by rw [s.digit])
      ⟨rfl, x.imm_prefix _ hrm, congrArg₂ and s.in_hasDigit (immFits_congr ..)⟩ s.readsAs_reservedMember
  | 25 | 27 => exact s.readsAs_decodeSreg fun _ => .bare s.is_noRm
  | 26 => exact s.readsAs_decodePopSreg
  | 46 => exact s.readsAs_decodeFlagOp
  | 1 | 47 =>
    exact s.readsAs_decodeMember (.cons ⟨rfl, hi (by decide), congrArg₂ and s.in_noRm (immFits_congr ..)⟩ .nil)
  | 2 => exact s.readsAs_decodeMember (.cons (.bare s.in_noRm) (.cons (.bare s.in_noRm) .nil))
  | 3 | 4 => exact s.readsAs_decodeMember (.cons (.bare s.in_noRm) .nil)
  | 11 => exact s.readsAs_decodeMember (.cons ⟨rfl, hw (by decide), s.in_noRm⟩ .nil)
  | 13 =>
    exact s.readsAs_decodeMember (.cons ⟨rfl, hb (by decide), s.is_noRm⟩ (.cons ⟨rfl, hb (by decide), s.is_noRm⟩
      (.cons ⟨rfl, hb (by decide), s.is_noRm⟩ (.cons ⟨rfl, hb (by decide), s.is_noRm⟩ .nil))))
  | 14 =>
    exact s.readsAs_decodeMember (.cons ⟨rfl, hw (by decide), s.is_noRm⟩ (.cons ⟨rfl, hw (by decide), s.is_noRm⟩
      (.cons ⟨rfl, hf (by decide), s.is_noRm⟩ (.cons ⟨rfl, hb (by decide), s.is_noRm⟩ .nil))))
  | 15 | 24 => exact s.readsAs_decodeMember (.cons (.bare s.in_hasRm) .nil)
  | 16 =>
    exact s.readsAs_decodeMember
      (.cons (readsAs_ite (by rw [Head.opReg, Head.opReg, s.op]) (.bare s.is_noRm) (.bare s.in_noRm)) .nil)
  | 17 =>
    exact s.readsAs_decodeMember (.cons (.bare s.in_noRm) (.cons (.bare s.in_noRm) (.cons (.bare s.in_noRm) .nil)))
  | 18 => exact s.readsAs_decodeMember (.cons (.bare s.in_noRm) (.cons (.bare s.in_noRm) .nil))
  | 19 =>
    exact s.readsAs_decodeMember (.cons ⟨rfl, hw (by decide), s.is_noRm⟩ (.cons (.bare s.is_noRm)
      (.cons ⟨rfl, hw (by decide), s.is_noRm⟩ (.cons (.bare s.is_noRm) (.cons (.bare s.is_noRm) .nil)))))
  | 21 | 22 => exact s.readsAs_decodeMember (.cons ⟨rfl, hb (by decide), s.in_noRm⟩ (.cons (.bare s.in_noRm) .nil))
  | 23 | 28 | 29 => exact s.readsAs_decodeMember (.cons (.bare s.is_noRm) (.cons (.bare s.is_noRm) .nil))
  | 30 | 31 | 33 | 34 | 35 | 36 | 38 | 40 | 44 | 45 | 49 => exact s.readsAs_decodeMember (.cons (.bare s.is_noRm) .nil)
  | 32 => exact s.readsAs_decodeMember (.cons ⟨rfl, hf (by decide), s.is_noRm⟩ .nil)
  | 37 => exact s.readsAs_decodeMember (.cons (.bare s.is_hasRm) (.cons (.bare s.is_hasRm) .nil))
  | 39 | 41 | 42 => exact s.readsAs_decodeMember (.cons ⟨rfl, hb (by decide), s.is_noRm⟩ .nil)
  | 43 | 48 => cases hc
  | n + 50 => cases hc
end

/-! ### Every window -/

/-- The instruction of an opcode byte with a handler has the head of the window and bytes that stand behind it, and is well
formed exactly if that of the sample head is. -/
theorem readsAs_decode (x : Window) (hc : hasHandler (lookup tRef.xlatOpcode x.b0).toNat = true) :
    ReadsAs (x.toBytes.drop (decodeHead tRef x).immAt) (decodeHead tRef x) (decode tRef x)
      (decodeClass (sampleHead x.b0.toNat (regField x.b1)) (lookup tRef.xlatOpcode x.b0).toNat
        (lookup tRef.xlatSubfunction x.b0).toNat (Window.ofBytes [])) := by
  rw [decode_of_mapped ⟨rfl, rfl⟩ hc]
  refine readsAs_decodeClass (sameForm_sampleHead x) _ hc fun hop => ?_
  have hz := (sameForm_sampleHead x).noRm
  simp only [sampleHead, modSize_of_behindOpcode _ (mem_opcodeRows x.b0) hop, if_true] at hz
  exact immAt_noRm hz

/-- Every window decodes to a well-formed instruction (30_encoding.md R129 to R131). -/
theorem wellFormed_decode (x : Window) : (decode tRef x).wellFormed = true := by
  cases hc : hasHandler (lookup tRef.xlatOpcode x.b0).toNat with
  | true => exact (readsAs_decode x hc).wf.trans (wellFormed_sample _ (mem_opcodeRows x.b0) hc _)
  | false =>
    rw [decode_of_noHandler hc]
    simpa using wellFormed_noHandler _ (mem_opcodeRows x.b0) hc

theorem encode_decodeNoHandler (op : Byte) : encode (decodeNoHandler op) = [op] := by
  unfold decodeNoHandler
  split_ifs <;> rfl

/-- A window starts with the bytes of what it decodes to (30_encoding.md R93). -/
theorem encode_decode_prefix (x : Window) : encode (decode tRef x) <+: x.toBytes := by
  cases hc : hasHandler (lookup tRef.xlatOpcode x.b0).toNat with
  | true =>
    obtain ⟨hh, ht, -⟩ := readsAs_decode x hc
    have hx := List.prefix_iff_eq_append.mp (encodeHead_decodeHead tRef x)
    rw [encodeHead_length] at hx
    rw [encode, hh, ← hx]
    exact (List.prefix_append_right_inj _).mpr ht
  | false =>
    rw [decode_of_noHandler hc, encode_decodeNoHandler]
    exact ⟨_, rfl⟩

/-- Settles O2: the instruction is made of the head and the bytes behind it, and its well-formedness is seen on the rows of
the map. -/
theorem encodeOfDecodeIsTheWindow : Obligations.EncodeOfDecodeIsTheWindow := fun x =>
  ⟨wellFormed_decode x, (List.prefix_iff_eq_take.mp (encode_decode_prefix x)).symm⟩

end Sys2Proof
end

section
/-! The length formula over every window (O3), sample words (O4), and a step as the pass of the decoded instruction (O5). -/

namespace Sys2Proof

open Sys2Proof.Laws Sys2Proof.Spec Sys2Proof.Machine

/-- The length formula gives the encoded length of every well-formed instruction but a reserved group member (30_encoding.md
R112). -/
theorem instLen_of_wellFormed (i : Instr) : Length.Statement i :=
  match i with
  | .addRmReg h => Length.addRmReg h | .addAccImm h imm => Length.addAccImm h imm
  | .addRmImm h imm => Length.addRmImm h imm | .orRmReg h => Length.orRmReg h
  | .orAccImm h imm => Length.orAccImm h imm | .orRmImm h imm => Length.orRmImm h imm
  | .adcRmReg h => Length.adcRmReg h | .adcAccImm h imm => Length.adcAccImm h imm
  | .adcRmImm h imm => Length.adcRmImm h imm | .sbbRmReg h => Length.sbbRmReg h
  | .sbbAccImm h imm => Length.sbbAccImm h imm | .sbbRmImm h imm => Length.sbbRmImm h imm
  | .andRmReg h => Length.andRmReg h | .andAccImm h imm => Length.andAccImm h imm
  | .andRmImm h imm => Length.andRmImm h imm | .subRmReg h => Length.subRmReg h
  | .subAccImm h imm => Length.subAccImm h imm | .subRmImm h imm => Length.subRmImm h imm
  | .xorRmReg h => Length.xorRmReg h | .xorAccImm h imm => Length.xorAccImm h imm
  | .xorRmImm h imm => Length.xorRmImm h imm | .cmpRmReg h => Length.cmpRmReg h
  | .cmpAccImm h imm => Length.cmpAccImm h imm | .cmpRmImm h imm => Length.cmpRmImm h imm
  | .movRmReg h => Length.movRmReg h | .movRegImm h imm => Length.movRegImm h imm
  | .movRmImm h imm => Length.movRmImm h imm | .movMoffs h addr => Length.movMoffs h addr
  | .movRmSreg h => Length.movRmSreg h | .movSregRm h => Length.movSregRm h | .xchgRmReg h => Length.xchgRmReg h
  | .xchgAx h => Length.xchgAx h | .nop h => Length.nop h | .lea h => Length.lea h | .les h => Length.les h
  | .lds h => Length.lds h | .xlat h => Length.xlat h | .cbw h => Length.cbw h | .cwd h => Length.cwd h
  | .incReg h => Length.incReg h | .incRm h => Length.incRm h | .decReg h => Length.decReg h
  | .decRm h => Length.decRm h | .neg h => Length.neg h | .mul h => Length.mul h | .imul h => Length.imul h
  | .div h => Length.div h | .idiv h => Length.idiv h | .daa h => Length.daa h | .das h => Length.das h
  | .aaa h => Length.aaa h | .aas h => Length.aas h | .aam h imm => Length.aam h imm | .aad h imm => Length.aad h imm
  | .not h => Length.not h | .testRmReg h => Length.testRmReg h | .testAccImm h imm => Length.testAccImm h imm
  | .testRmImm h imm => Length.testRmImm h imm | .rolOne h => Length.rolOne h | .rolCl h => Length.rolCl h
  | .rorOne h => Length.rorOne h | .rorCl h => Length.rorCl h | .rclOne h => Length.rclOne h
  | .rclCl h => Length.rclCl h | .rcrOne h => Length.rcrOne h | .rcrCl h => Length.rcrCl h
  | .shlOne h => Length.shlOne h | .shlCl h => Length.shlCl h | .shrOne h => Length.shrOne h
  | .shrCl h => Length.shrCl h | .sarOne h => Length.sarOne h | .sarCl h => Length.sarCl h
  | .jo h rel => Length.jo h rel | .jno h rel => Length.jno h rel | .jb h rel => Length.jb h rel
  | .jnb h rel => Length.jnb h rel | .jz h rel => Length.jz h rel | .jnz h rel => Length.jnz h rel
  | .jbe h rel => Length.jbe h rel | .jnbe h rel => Length.jnbe h rel | .js h rel => Length.js h rel
  | .jns h rel => Length.jns h rel | .jp h rel => Length.jp h rel | .jnp h rel => Length.jnp h rel
  | .jl h rel => Length.jl h rel | .jnl h rel => Length.jnl h rel | .jle h rel => Length.jle h rel
  | .jnle h rel => Length.jnle h rel | .jmpRel8 h rel => Length.jmpRel8 h rel
  | .jmpRel16 h rel => Length.jmpRel16 h rel | .jmpFar h off seg => Length.jmpFar h off seg
  | .jmpRm h => Length.jmpRm h | .jmpFarRm h => Length.jmpFarRm h | .callRel h rel => Length.callRel h rel
  | .callFar h off seg => Length.callFar h off seg | .callRm h => Length.callRm h
  | .callFarRm h => Length.callFarRm h | .ret h => Length.ret h | .retImm h imm => Length.retImm h imm
  | .retf h => Length.retf h | .retfImm h imm => Length.retfImm h imm | .iret h => Length.iret h
  | .loopnz h rel => Length.loopnz h rel | .loopz h rel => Length.loopz h rel | .loop h rel => Length.loop h rel
  | .jcxz h rel => Length.jcxz h rel | .movs h => Length.movs h | .stos h => Length.stos h | .lods h => Length.lods h
  | .cmps h => Length.cmps h | .scas h => Length.scas h | .pushReg h => Length.pushReg h
  | .pushSreg h r => Length.pushSreg h r | .pushRm h => Length.pushRm h | .popReg h => Length.popReg h
  | .popSreg h r => Length.popSreg h r | .popRm h => Length.popRm h | .pushf h => Length.pushf h
  | .popf h => Length.popf h | .clc h => Length.clc h | .stc h => Length.stc h | .cli h => Length.cli h
  | .sti h => Length.sti h | .cld h => Length.cld h | .std h => Length.std h | .cmc h => Length.cmc h
  | .lahf h => Length.lahf h | .sahf h => Length.sahf h | .inImm h port => Length.inImm h port
  | .inDx h => Length.inDx h | .outImm h port => Length.outImm h port | .outDx h => Length.outDx h
  | .seg h r => Length.seg h r | .repnz h => Length.repnz h | .repz h => Length.repz h | .int3 h => Length.int3 h
  | .int h vector => Length.int h vector | .into h => Length.into h | .hlt h => Length.hlt h
  | .reservedOpcode h => Length.reservedOpcode h | .reservedWait h => Length.reservedWait h
  | .reservedLock h => Length.reservedLock h | .reservedEsc h => Length.reservedEsc h
  | .reservedMember h => Length.reservedMember h

theorem encode_length_pos (i : Instr) : 1 ≤ (encode i).length := by
  rw [encode_length, Head.immAt]
  split <;> omega

theorem encode_decode_length_le (x : Window) : (encode (decode tRef x)).length ≤ 6 :=
  (encode_decode_prefix x).length_le

/-- A window that starts with the bytes of a decoded instruction decodes to the same instruction. -/
theorem decode_of_prefix {i : Instr} {y : Window} (hw : i.wellFormed = true) (hp : encode i <+: y.toBytes) :
    decode tRef y = i := by
  obtain ⟨rest, hy⟩ := hp
  rw [← Window.ofBytes_toBytes y, ← hy, decode_encode i rest hw]

/-- Settles O3: the formula gives the encoded length, and the bytes of a well-formed instruction determine it. -/
theorem lengthFormulaCountsTheBytesRead : Obligations.LengthFormulaCountsTheBytesRead := by
  intro x y hr
  have hw := wellFormed_decode x
  have hn : instLen tRef (decode tRef x).head = (encode (decode tRef x)).length :=
    instLen_of_wellFormed _ (fun h hc => by rw [hc] at hr; cases hr) hw
  rw [hn]
  refine ⟨encode_length_pos _, encode_decode_length_le x, rfl, fun ht => decode_of_prefix hw ?_⟩
  rw [List.prefix_iff_eq_take, ← ht]
  exact List.prefix_iff_eq_take.mp (encode_decode_prefix x)

/-- Settles O4: each word is the encoding of its instruction. -/
theorem sampleWordsDecode : Obligations.SampleWordsDecode :=
  ⟨decode_encode (.addRmReg ⟨0x01, some ⟨3, .reg 0⟩⟩) [] rfl,
    decode_encode (.addRmImm ⟨0x83, some ⟨0, .reg 3⟩⟩ 0x00FF) [] rfl,
    decode_encode (.movRmReg ⟨0x8B, some ⟨0, .mem16 0 0x1000⟩⟩) [] rfl,
    decode_encode (.shlCl ⟨0xD3, some ⟨4, .reg 0⟩⟩) [] rfl,
    decode_encode (.jz ⟨0x74, none⟩ 0x05) [] rfl,
    decode_encode (.callFar ⟨0x9A, none⟩ 0x1234 0x3000) [] rfl,
    decode_encode (.movs ⟨0xA5, none⟩) [] rfl,
    decode_encode (.popSreg ⟨0x1F, none⟩ .ds) [] rfl,
    decode_encode (.sti ⟨0xFB, none⟩) [] rfl,
    decode_encode (.int ⟨0xCD, none⟩ 0x21) [] rfl,
    decode_encode (.reservedMember ⟨0xFF, some ⟨7, .reg 0⟩⟩) [] rfl⟩

/-- Settles O5: the pass of a running engine, with O1 for the instruction at CS:IP. -/
theorem stepRunsTheDecodedInstruction : Obligations.StepRunsTheDecodedInstruction := by
  intro s hr hq
  refine ⟨step_pass hr hq, fun i rest hw ht hf => ?_⟩
  rw [step_pass hr hq, ht, hf, decode_encode i rest hw]

end Sys2Proof
end

section
/-! The resolver: its operand under `T_REF` (O17), and its fault, which comes before every handler (O60; 30_encoding.md R100 to
R107; 60_exceptions.md R355, R359). -/

namespace Sys2Proof.Machine

open Sys2Proof.Spec

/-- Settles O17, by the operand that the tables `T_REF` give. -/
theorem addressingForms : Obligations.AddressingForms := by
  intro s op m ht hw
  simp only [State.resolve, resolveRm_tRef ht hw]

/-- A memory operand with an entry that is used and out of range is no operand (30_encoding.md R104, R106). -/
theorem resolveRm_none {s : State} {ea : RM} {f : Form} (hf : formEntries s.tables ea = some f)
    (hbad : 13 ≤ f.reg1.toNat ∨ 13 ≤ f.reg2.toNat ∨ 2 ≤ f.mult.toNat ∨ s.segCnt = 0 ∧ 13 ≤ f.defseg.toNat) :
    s.resolveRm ea = none := by
  cases ea with
  | reg rm => cases hf
  | mem rm | direct disp | mem8 rm disp | mem16 rm disp =>
    obtain rfl := Option.some.inj hf
    exact memOperand_none s _ _ hbad

section
variable {h : Head} {s : State}

theorem run_of_valueOutOfRange (hr : s.resolve h = .valueOutOfRange) (r : Result) :
    run h s r = .next (s.raiseFault h .valueOutOfRange none none) := by
  simp only [run, hr, finish]

theorem runRm_of_valueOutOfRange (hr : s.resolve h = .valueOutOfRange) (f : Operand → BitVec 3 → Result) :
    runRm h s f = .next (s.raiseFault h .valueOutOfRange none none) := by
  simp only [runRm, hr, finish]

end

/-- A fault of the resolver comes before the handler of every instruction whose class has one (60_exceptions.md R359). -/
theorem exec_of_valueOutOfRange (i : Instr) {s : State} (h2 : foundInStep2 i = false)
    (hr : s.resolve i.head = .valueOutOfRange) :
    exec i s = .next (s.raiseFault i.head .valueOutOfRange none none) := by
  cases i with
  | addRmReg h | addRmImm h imm | orRmReg h | orRmImm h imm | adcRmReg h | adcRmImm h imm | sbbRmReg h
  | sbbRmImm h imm | andRmReg h | andRmImm h imm | subRmReg h | subRmImm h imm | xorRmReg h | xorRmImm h imm
  | cmpRmReg h | cmpRmImm h imm | incRm h | decRm h | neg h | testRmReg h | testRmImm h imm | rolOne h | rolCl h
  | rorOne h | rorCl h | rclOne h | rclCl h | rcrOne h | rcrCl h | shlOne h | shlCl h | shrOne h | shrCl h | sarOne h
  | sarCl h | movRmReg h | movRmImm h imm | movRmSreg h | movSregRm h | xchgRmReg h | lea h | les h | lds h | mul h
  | imul h | div h | idiv h | not h | jmpRm h | jmpFarRm h | callRm h | callFarRm h | pushRm h | popRm h =>
    exact runRm_of_valueOutOfRange hr _
  | addAccImm h imm | orAccImm h imm | adcAccImm h imm | sbbAccImm h imm | andAccImm h imm | subAccImm h imm
  | xorAccImm h imm | cmpAccImm h imm | incReg h | decReg h | daa h | das h | aam h imm | aad h imm | testAccImm h imm
  | cmps h | scas h | inImm h port | inDx h | outImm h port | outDx h | reservedMember h | movRegImm h imm | xchgAx h
  | nop h | xlat h | cbw h | cwd h | aaa h | aas h | jo h rel | jno h rel | jb h rel | jnb h rel | jz h rel
  | jnz h rel | jbe h rel | jnbe h rel | js h rel | jns h rel | jp h rel | jnp h rel | jl h rel | jnl h rel
  | jle h rel | jnle h rel | jmpRel8 h rel | jmpRel16 h rel | jmpFar h off seg | callRel h rel | callFar h off seg
  | ret h | retImm h imm | retf h | retfImm h imm | iret h | loopnz h rel | loopz h rel | loop h rel | jcxz h rel
  | movs h | stos h | lods h | pushReg h | pushSreg h r | popReg h | popSreg h r | pushf h | popf h | clc h | stc h
  | cli h | sti h | cld h | std h | cmc h | lahf h | sahf h | seg h r | repnz h | repz h | int3 h | int h vector
  | into h | hlt h | movMoffs h addr =>
    exact run_of_valueOutOfRange hr _
  | reservedOpcode h | reservedWait h | reservedLock h | reservedEsc h => cases h2

/-- Settles O60: the resolver fails on the bad entry, and its fault is that of the pass. -/
theorem resolverFaultsFirst : Obligations.ResolverFaultsFirst := by
  intro i s m f hm h2 hf hbad
  exact exec_of_valueOutOfRange i h2 (by simp only [State.resolve, hm, resolveRm_none hf hbad])

end Sys2Proof.Machine
end

section
/-! The pass of a well-formed instruction under `T_REF`, said once for every handler whose opcode byte has flag policy 0:
it advances IP behind the encoded bytes, or it faults (30_encoding.md R91, R112, R113, R115, R116). -/

namespace Sys2Proof.Machine

open Sys2Proof.Laws Sys2Proof.Spec

section
variable {i : Instr} {h : Head} {s t u : State} {m : ModRM} {f : Operand → BitVec 3 → Result}

/-- The pass of a well-formed instruction whose handler leaves IP alone ends behind its encoded bytes (30_encoding.md R112,
R113). -/
theorem finish_done_advance (ht : s.tables = tRef) (hw : i.wellFormed = true) (hr : isReserved i = false)
    (hh : i.head = h) (hip : t.ip = s.ip) : finish h s (.done t) = .next (advance i t) := by
  subst hh
  have hlen : instLen tRef i.head = (encode i).length :=
    instLen_of_wellFormed i (fun h hc => by rw [hc] at hr; cases hr) hw
  simp only [finish, State.endPass, State.nextIp, advance, ht, hlen, hip]

/-- A fault is raised by the instruction whose head the pass has (60_exceptions.md R351). -/
theorem finish_raise_faulted (hh : i.head = h) (k : FaultKind) (q : Option FaultReason) (v : Option Byte) :
    finish h s (.raise k q v) = .next (faulted i s k q v) := by
  subst hh; rfl

/-- Under `T_REF` the handler of a ModRM operand gets the operand of its addressing form (30_encoding.md R100, R109). -/
theorem runRm_tRef (ht : s.tables = tRef) (hm : h.modrm = some m) (hw : m.ea.wellFormed = true)
    (f : Operand → BitVec 3 → Result) : runRm h s f = finish h s (f (operand s m.ea) m.reg) := by
  simp only [runRm, State.resolve, hm, resolveRm_tRef ht hw]

theorem runRmTable_tRef (ht : s.tables = tRef) (hp : flagPolicy h.op.toNat = 0) (hm : h.modrm = some m)
    (hw : m.ea.wellFormed = true) (f : Operand → BitVec 3 → Result) :
    runRmTable h s f = finish h s (f (operand s m.ea) m.reg) := by
  rw [runRmTable_zero (stdPolicy_tRef ht hp), runRm_tRef ht hm hw]

theorem runTable_tRef (ht : s.tables = tRef) (hp : flagPolicy h.op.toNat = 0) (hm : h.modrm = none) (r : Result) :
    runTable h s r = finish h s r := by
  rw [runTable_zero (stdPolicy_tRef ht hp), run_noModRM hm]

/-- The operand of a well-formed instruction is in the form its bytes have (30_encoding.md R107). -/
theorem ea_wellFormed (hw : i.wellFormed = true) (hh : i.head = h) (hm : h.modrm = some m) :
    m.ea.wellFormed = true := by
  subst hh
  exact (headShape_of_wellFormed i hw).2 m hm

/-- An instruction with a ModRM operand whose handler leaves `t`, and IP to the advance. -/
theorem runRmTable_advance (ht : s.tables = tRef) (hw : i.wellFormed = true) (hr : isReserved i = false)
    (hp : flagPolicy h.op.toNat = 0) (hh : i.head = h) (hm : h.modrm = some m)
    (hf : f (operand s m.ea) m.reg = .done t) (hip : t.ip = s.ip) : runRmTable h s f = .next (advance i t) := by
  rw [runRmTable_tRef ht hp hm (ea_wellFormed hw hh hm), hf, finish_done_advance ht hw hr hh hip]

/-- An instruction without a ModRM byte whose handler leaves `t`, and IP to the advance. -/
theorem runTable_advance (ht : s.tables = tRef) (hw : i.wellFormed = true) (hr : isReserved i = false)
    (hp : flagPolicy h.op.toNat = 0) (hh : i.head = h) (hm : h.modrm = none) (hu : u = t) (hip : t.ip = s.ip) :
    runTable h s (.done u) = .next (advance i t) := by
  rw [runTable_tRef ht hp hm, hu, finish_done_advance ht hw hr hh hip]

/-- A handler that needs a memory operand and gets a register faults (60_exceptions.md R354). -/
theorem runRmTable_withMemory_reg {n : BitVec 3} {g : BitVec 3 → Word → Nat → Result} (ht : s.tables = tRef)
    (hp : flagPolicy h.op.toNat = 0) (hh : i.head = h) (hm : h.modrm = some m) (he : m.ea = .reg n) :
    runRmTable h s (fun rm reg => withMemory rm (g reg)) = .next (faulted i s .unknownOperandShape none none) := by
  rw [runRmTable_tRef ht hp hm (by rw [he]; rfl), he]
  exact finish_raise_faulted hh _ _ _

/-! ### The width bit (30_encoding.md R96) -/

/-- The high half of the opcode byte. -/
theorem Head.op_div_16 (h : Head) : (h.op.extractLsb' 4 4 : BitVec 4).toNat = h.op.toNat / 16 := by
  have := h.op.isLt
  simp only [BitVec.extractLsb'_toNat, Nat.shiftRight_eq_div_pow]
  omega

/-- Outside B0 to BF, and but for 8C, 8E and C4, the width bit is `B0[0]`. -/
theorem Head.width_eq_bit0 {lo hi : Nat} (ho : h.opIn lo hi = true)
    (hr : hi < 0x8C ∨ 0x8E < lo ∧ hi < 0xB0 ∨ 0xC4 < lo) : h.width = Width.ofBit (h.op.getLsbD 0) := by
  simp only [Head.opIn, Bool.and_eq_true, decide_eq_true_eq] at ho
  have hB : h.op.extractLsb' 4 4 ≠ (0xB : BitVec 4) := fun hc => by
    have hhigh := Head.op_div_16 h
    rw [hc] at hhigh
    simp only [BitVec.reduceToNat] at hhigh
    omega
  have hword : ¬ (h.op = 0x8C ∨ h.op = 0x8E ∨ h.op = 0xC4) := by bv_omega
  rw [Head.width, opWidth, if_neg hB, if_neg hword]

/-- In B0 to BF the width bit is `B0[3]`. -/
theorem Head.width_eq_bit3 (ho : h.opIn 0xB0 0xBF = true) : h.width = Width.ofBit (h.op.getLsbD 3) := by
  simp only [Head.opIn, Bool.and_eq_true, decide_eq_true_eq] at ho
  have hB : h.op.extractLsb' 4 4 = (0xB : BitVec 4) := by
    refine BitVec.eq_of_toNat_eq ((Head.op_div_16 h).trans ?_)
    simp only [BitVec.reduceToNat]
    omega
  rw [Head.width, opWidth, if_pos hB]

end

/-- An immediate that fits is its own value (30_encoding.md R110). -/
theorem immValue_of_fits {w : Width} {imm : Word} (hf : immFits w imm = true) : immValue w imm = imm.toNat :=
  Nat.mod_eq_of_lt (of_decide_eq_true hf)

end Sys2Proof.Machine
end

section
/-! The data movement instructions (40_data_movement.md R141 to R155): O32 to O36. -/

namespace Sys2Proof.Machine

open Sys2Proof.Laws Sys2Proof.Spec

/-! ### MOV between operands, and of an immediate -/

/-- The direction bit names destination and source (30_encoding.md R97, R109). -/
theorem direct_operand (s : State) (h : Head) (m : ModRM) :
    direct h.dir (operand s m.ea) m.reg = (toOperand s h m, fromOperand s h m) := by
  unfold direct toOperand fromOperand Head.dir
  split <;> rfl

/-- Settles O32: each form writes what its handler reads, with the width bit of its opcode byte. -/
theorem movResults : Obligations.MovResults := by
  intro s b ht w
  refine ⟨fun m hw => ?_, fun imm hw => ?_, fun m imm hw => ?_⟩
  · obtain ⟨ho, -⟩ := both hw
    refine runRmTable_advance ht hw rfl (range_of_in ho rfl) rfl rfl ?_ (State.writeOp_ip ..)
    rw [direct_operand, Head.width_eq_bit0 ho (by decide)]
  · obtain ⟨⟨ho, -⟩, hf⟩ := (both hw).imp_left both
    refine runTable_advance ht hw rfl (range_of_in ho rfl) rfl rfl ?_ (State.setReg_ip ..)
    rw [immValue_of_fits hf, Head.width_eq_bit3 ho, Head.opReg]
  · obtain ⟨⟨ho, -⟩, hf⟩ := (both hw).imp_left both
    refine runRmTable_advance ht hw rfl (range_of_in ho rfl) rfl rfl ?_ (State.writeOp_ip ..)
    rw [immValue_of_fits hf, Head.width_eq_bit0 ho (by decide)]

/-! ### MOV with a direct offset or a segment register, XCHG, NOP -/

/-- MOV of a direct offset reads and writes the operand at the offset in the overridable data segment
(40_data_movement.md R144). -/
theorem execMovMoffs_advance {s : State} {b : Byte} {addr : Word} (ht : s.tables = tRef)
    (hw : (Instr.movMoffs ⟨b, none⟩ addr).wellFormed = true) :
    exec (.movMoffs ⟨b, none⟩ addr) s = .next (advance (.movMoffs ⟨b, none⟩ addr)
      (if b.getLsbD 1 then s.writeOp (Width.ofBit (b.getLsbD 0)) (memAt s .ds addr) (s.reg (Width.ofBit (b.getLsbD 0)) 0)
       else s.setReg (Width.ofBit (b.getLsbD 0)) 0 (s.readOp (Width.ofBit (b.getLsbD 0)) (memAt s .ds addr)))) := by
  obtain ⟨ho, -⟩ := both hw
  refine runTable_advance ht hw rfl (range_of_in ho rfl) rfl rfl ?_ (by split <;> simp)
  rw [Head.width_eq_bit0 ho (by decide), s.ovr_eq_segmentValue]
  rfl

/-- Settles O33, form by form. -/
theorem movSegmentAndExchangeResults : Obligations.MovSegmentAndExchangeResults := by
  intro s b ht w
  refine ⟨fun addr hw => execMovMoffs_advance ht hw, fun m hw => ?_, fun m hw => ?_, fun m hw => ?_, fun hw => ?_, ?_⟩
  · exact runRmTable_advance ht hw rfl (value_of_is (both hw).1 rfl) rfl rfl rfl (State.writeOp_ip ..)
  · exact runRmTable_advance ht hw rfl (value_of_is (both hw).1 rfl) rfl rfl rfl (State.setSreg_ip ..)
  · obtain ⟨ho, -⟩ := both hw
    refine runRmTable_advance ht hw rfl (range_of_in ho rfl) rfl rfl ?_
      ((State.setReg_ip ..).trans (State.writeOp_ip ..))
    rw [Head.width_eq_bit0 ho (by decide)]
  · exact runTable_advance ht hw rfl (range_of_in (both hw).1 rfl) rfl rfl rfl (State.setReg16_ip ..)
  · exact runTable_advance (i := .nop ⟨0x90, none⟩) ht rfl rfl rfl rfl rfl rfl rfl

/-! ### LEA, LES, LDS -/

/-- Settles O34: the handler gets the offset and the address of a memory operand, and faults on a register. -/
theorem addressLoadResults : Obligations.AddressLoadResults := by
  intro s m ht hea
  refine ⟨fun ea a hop => ⟨?_, ?_, ?_⟩, fun r hr i hi => ?_⟩
  · exact runRmTable_advance ht hea rfl rfl rfl rfl (by rw [hop]; rfl) (State.setReg16_ip ..)
  · exact runRmTable_advance ht hea rfl rfl rfl rfl (by rw [hop]; rfl) (State.setReg16_ip ..)
  · exact runRmTable_advance ht hea rfl rfl rfl rfl (by rw [hop]; rfl) (State.setReg16_ip ..)
  · simp only [List.mem_cons, List.not_mem_nil, or_false] at hi
    rcases hi with rfl | rfl | rfl <;> exact runRmTable_withMemory_reg ht rfl rfl rfl hr

/-! ### XLAT, CBW, CWD -/

/-- An instruction of one byte is decoded from every window that starts with it. -/
theorem decode_of_opcode {i : Instr} {op : Byte} {x : Window} (hw : i.wellFormed = true) (he : encode i = [op])
    (hx : x.b0 = op) : decode tRef x = i :=
  decode_of_prefix hw ⟨[x.b1, x.b2, x.b3, x.b4, x.b5], by rw [he, ← hx]; rfl⟩

/-- AL is the low half of AX. -/
theorem State.al_eq_setWidth (s : State) : s.al = s.ax.setWidth 8 :=
  (BitVec.setWidth_eq_extractLsb' (by decide)).symm

/-- The offset of the table byte wraps at 16 bits (40_data_movement.md R153). -/
theorem State.xlat_offset (s : State) :
    (s.bx + s.al.setWidth 16).toNat = (s.bx.toNat + s.ax.toNat % 256) % 65536 := by
  rw [BitVec.toNat_add, s.al_eq_setWidth, BitVec.toNat_setWidth_of_le (by decide), BitVec.toNat_setWidth]

/-- Settles O35: the offset wraps, and the high half of AX is kept. -/
theorem xlatLoadsTheTableByte : Obligations.XlatLoadsTheTableByte := by
  intro s x ht hx
  refine ⟨decode_of_opcode rfl rfl hx, ⟨rfl, rfl⟩, rfl, ?_⟩
  refine runTable_advance (i := .xlat ⟨0xD7, none⟩) ht rfl rfl rfl rfl rfl ?_ rfl
  rw [s.ovr_eq_segmentValue, phys, s.xlat_offset]
  rfl

/-- The sign extension of a byte repeats its bit 7 (00_scope.md R9). -/
theorem sext_eq_append (b : Byte) : sext b = (if b.getLsbD 7 then (0xFF : Byte) else 0x00) ++ b := by
  revert b; decide +kernel

/-- Sixteen copies of the sign of a word (40_data_movement.md R155). -/
theorem signCopies_eq (v : Word) :
    (if v.getLsbD 15 then (0xFFFF : Word) else 0x0000) = if v.toNat < 0x8000 then 0x0000 else 0xFFFF := by
  have hsign : v.getLsbD 15 = decide (0x8000 ≤ v.toNat) := (BitVec.msb_eq_getLsbD_last v).symm.trans v.msb_eq_decide
  rw [hsign]
  by_cases hv : v.toNat < 0x8000
  · rw [if_pos hv, if_neg (by simpa using hv)]
  · rw [if_neg hv, if_pos (by simpa using hv)]

/-- Settles O36, by the sign of AL and the sign of AX. -/
theorem signExtensionResults : Obligations.SignExtensionResults := by
  intro s x ht
  refine ⟨fun hx => ⟨decode_of_opcode rfl rfl hx, ⟨rfl, rfl⟩, rfl, ?_⟩,
    fun hx => ⟨decode_of_opcode rfl rfl hx, ⟨rfl, rfl⟩, rfl, ?_⟩⟩
  · refine runTable_advance (i := .cbw ⟨0x98, none⟩) ht rfl rfl rfl rfl rfl ?_ rfl
    rw [sext_eq_append, s.al_eq_setWidth, BitVec.getLsbD_setWidth]
    rfl
  · refine runTable_advance (i := .cwd ⟨0x99, none⟩) ht rfl rfl rfl rfl rfl ?_ rfl
    exact congrArg (fun v => { s with dx := v }) (signCopies_eq s.ax)

end Sys2Proof.Machine
end

section
/-! The frame of the general registers (10_state.md R25, R26): which operations keep a register, for any tables. -/

namespace Sys2Proof.Machine

open Sys2Proof.Spec

/-- The operand is no register that has its storage in general register `n`. -/
def Operand.Misses (o : Operand) (w : Width) (n : BitVec 3) : Prop := ∀ r, o = .reg r → holds w r n = false

section
variable {s t : State} {h : Head} {w : Width} {n j k : BitVec 3} {o : Operand} {reg : BitVec 3}

/-! ### The operand that the resolver gives -/

/-- An addressing form gives a memory operand (30_encoding.md R104). -/
theorem memOperand_ne_reg {f : Form} {d : Word} : s.memOperand f d ≠ some (.reg k) := by
  unfold State.memOperand
  split <;> exact nofun

/-- The resolver gives a register for `mod = 3` only (30_encoding.md R102). -/
theorem ea_of_resolveRm_reg {ea : RM} (hr : s.resolveRm ea = some (.reg k)) : ea = .reg k := by
  cases ea with
  | reg rm => cases hr; rfl
  | mem rm | direct disp | mem8 rm disp | mem16 rm disp => exact absurd hr memOperand_ne_reg

theorem Operand.misses_of_rmHolds (hn : rmHolds w h n = false) (ho : s.resolve h = .operands o reg) : o.Misses w n := by
  rintro r rfl
  obtain ⟨⟨q, ea⟩, hm, -, hr⟩ := resolve_operands ho
  obtain rfl := ea_of_resolveRm_reg hr
  simpa only [rmHolds, hm] using hn

theorem holds_of_regHolds (hn : regHolds w h n = false) (ho : s.resolve h = .operands o reg) :
    holds w reg n = false := by
  obtain ⟨m, hm, rfl, -⟩ := resolve_operands ho
  simpa only [regHolds, hm] using hn

theorem Operand.misses_reg (hn : holds w k n = false) : (Operand.reg k).Misses w n := by
  rintro r ⟨⟩; exact hn

/-- The accumulator has its storage in AX for both widths. -/
theorem Operand.misses_acc (hn : (n == 0) = false) : (Operand.reg 0).Misses w n := by
  cases w <;> exact Operand.misses_reg hn

/-- The destination of a format with a direction bit (30_encoding.md R97, R109). -/
theorem Operand.misses_direct (hn : toHolds h n = false) (ho : s.resolve h = .operands o reg) :
    (direct h.dir o reg).1.Misses h.width n := by
  unfold Head.dir
  cases hd : h.op.getLsbD 1 with
  | true => exact Operand.misses_reg (holds_of_regHolds (by simpa only [toHolds, hd, if_true] using hn) ho)
  | false => exact Operand.misses_of_rmHolds (by simpa only [toHolds, hd, Bool.false_eq_true, if_false] using hn) ho

/-! ### What keeps a general register -/

/-- A state whose general registers are those after one write of register `k`. -/
theorem State.reg16_of_setReg16 {v : Word} (hn : (n == k) = false) (ht : t.reg16 n = (s.setReg16 k v).reg16 n) :
    t.reg16 n = s.reg16 n := ht.trans (s.reg16_setReg16_of_ne (ne_of_beq_false hn) v)

/-- A state whose general registers are those after a write of register `j` and one of register `k`. -/
theorem State.reg16_of_setReg16_setReg16 {v u : Word} (hj : (n == j) = false) (hk : (n == k) = false)
    (ht : t.reg16 n = ((s.setReg16 j u).setReg16 k v).reg16 n) : t.reg16 n = s.reg16 n :=
  (State.reg16_of_setReg16 hk ht).trans (State.reg16_of_setReg16 hj rfl)

theorem State.reg16_setReg (hn : holds w k n = false) (v : Nat) : (s.setReg w k v).reg16 n = s.reg16 n := by
  cases w with
  | byte => exact s.reg16_setReg8_of_ne (ne_of_beq_false hn) _
  | word => exact s.reg16_setReg16_of_ne (ne_of_beq_false hn) _

theorem State.reg16_writeOp (ho : o.Misses w n) (v : Nat) : (s.writeOp w o v).reg16 n = s.reg16 n := by
  cases o with
  | reg k => exact State.reg16_setReg (ho k rfl) v
  | mem ea a => rfl

theorem State.reg16_withFlags (f : Flags) : { t with flags := f }.reg16 n = t.reg16 n := rfl

/-- CMP writes no register; every other operation writes its destination (41_arithmetic.md R170). -/
theorem State.reg16_alu {op : AluOp} (ho : op = .cmp ∨ o.Misses w n) (p : Byte) (sv : Nat) :
    (s.alu op w p o sv).reg16 n = s.reg16 n := by
  refine (State.reg16_withFlags _).trans ?_
  split
  · rfl
  · next hc => exact State.reg16_writeOp (ho.resolve_left hc) _

theorem State.reg16_incDec (ho : o.Misses w n) (p : Byte) (inc : Bool) :
    (s.incDec w p o inc).reg16 n = s.reg16 n := (State.reg16_withFlags _).trans (State.reg16_writeOp ho _)

theorem State.reg16_negate (ho : o.Misses w n) : (s.negate w o).reg16 n = s.reg16 n :=
  (State.reg16_withFlags _).trans (State.reg16_writeOp ho _)

theorem State.reg16_shift (ho : o.Misses w n) (op : ShiftOp) (c : Nat) : (s.shift op w o c).reg16 n = s.reg16 n := by
  unfold State.shift
  split
  · rfl
  · exact (State.reg16_withFlags _).trans (State.reg16_writeOp ho _)

/-- A product goes to AX, and with width 16 to DX also (41_arithmetic.md R179, R180). -/
theorem State.reg16_setProduct (hn : (n == 0 || (n == 2 && w == .word)) = false) (p : Nat) :
    (s.setProduct w p).reg16 n = s.reg16 n := by
  obtain ⟨h0, h2⟩ := Bool.or_eq_false_iff.mp hn
  cases w with
  | byte => exact State.reg16_of_setReg16 h0 rfl
  | word => exact State.reg16_of_setReg16_setReg16 h0 (by simpa using h2) rfl

/-- Quotient and remainder go to AX, and with width 16 to AX and DX (41_arithmetic.md R181, R182). -/
theorem State.reg16_setQuotient (hn : (n == 0 || (n == 2 && w == .word)) = false) (q r : Nat) :
    (s.setQuotient w q r).reg16 n = s.reg16 n := by
  obtain ⟨h0, h2⟩ := Bool.or_eq_false_iff.mp hn
  cases w with
  | byte => exact State.reg16_of_setReg16 h0 rfl
  | word => exact State.reg16_of_setReg16_setReg16 h0 (by simpa using h2) rfl

/-- What a division answers: a fault, or a quotient and a remainder of its width (41_arithmetic.md R181, R182). -/
def Result.IsDivision (s : State) (w : Width) (r : Result) : Prop :=
  r = divideFault ∨ ∃ q m, r = .done (s.setQuotient w q m)

theorem State.divide_isDivision (s : State) (w : Width) (v : Nat) : (s.divide w v).IsDivision s w := by
  unfold State.divide
  split
  · exact .inl rfl
  · split
    · exact .inl rfl
    · exact .inr ⟨_, _, rfl⟩

theorem State.divideSigned_isDivision (s : State) (w : Width) (v : Nat) : (s.divideSigned w v).IsDivision s w := by
  unfold State.divideSigned
  simp only
  split
  · exact .inl rfl
  · split
    · exact .inl rfl
    · exact .inr ⟨_, _, rfl⟩

theorem Result.IsDivision.keepsReg {r : Result} (hr : r.IsDivision s w)
    (hn : (n == 0 || (n == 2 && w == .word)) = false) : r.KeepsView (fun t => t.reg16 n) s := by
  rcases hr with rfl | ⟨q, m, rfl⟩
  · exact Result.keepsView_raise _ _ _
  · exact Result.keepsView_done (State.reg16_setQuotient hn q m)

theorem State.reg16_asciiAdjust (hn : (n == 0) = false) (al ah : Byte) :
    (s.asciiAdjust al ah).reg16 n = s.reg16 n := by
  unfold State.asciiAdjust
  split <;> exact State.reg16_of_setReg16 hn rfl

theorem State.reg16_push (hn : (n == 4) = false) (v : Word) : (s.push v).reg16 n = s.reg16 n :=
  State.reg16_of_setReg16 hn rfl

theorem State.reg16_drop (hn : (n == 4) = false) : s.drop.reg16 n = s.reg16 n := State.reg16_of_setReg16 hn rfl

theorem State.reg16_deliver (hn : (n == 4) = false) (vector : Byte) (ret : Word) :
    (s.deliver vector ret).reg16 n = s.reg16 n := State.reg16_of_setReg16 hn rfl

/-! ### The string instructions -/

theorem State.reg16_stepSi (hn : (n == 6) = false) : (s.stepSi w).reg16 n = s.reg16 n :=
  State.reg16_of_setReg16 hn rfl

theorem State.reg16_stepDi (hn : (n == 7) = false) : (s.stepDi w).reg16 n = s.reg16 n :=
  State.reg16_of_setReg16 hn rfl

theorem State.reg16_countDown (hn : (n == 1) = false) : s.countDown.reg16 n = s.reg16 n :=
  State.reg16_of_setReg16 hn rfl

theorem State.reg16_movsElement (h6 : (n == 6) = false) (h7 : (n == 7) = false) :
    (s.movsElement w).reg16 n = s.reg16 n := (State.reg16_stepDi h7).trans (State.reg16_stepSi h6)

theorem State.reg16_cmpsElement (h6 : (n == 6) = false) (h7 : (n == 7) = false) :
    (s.cmpsElement w).reg16 n = s.reg16 n := (State.reg16_stepDi h7).trans (State.reg16_stepSi h6)

theorem State.reg16_stosElement (h7 : (n == 7) = false) : (s.stosElement w).reg16 n = s.reg16 n :=
  State.reg16_stepDi h7

theorem State.reg16_scasElement (h7 : (n == 7) = false) : (s.scasElement w).reg16 n = s.reg16 n :=
  State.reg16_stepDi h7

theorem State.reg16_lodsElement (h0 : (n == 0) = false) (h6 : (n == 6) = false) :
    (s.lodsElement w).reg16 n = s.reg16 n :=
  (State.reg16_stepSi h6).trans (State.reg16_writeOp (Operand.misses_acc h0) _)

/-- The count is CX, and it is counted with the repeat latch only (44_string.md R271). -/
theorem State.reg16_runString {element : State → State} (hn : (n == 1 && s.repActive) = false)
    (he : ∀ u, (element u).reg16 n = u.reg16 n) (stop : State → Bool) :
    (s.runString element stop).reg16 n = s.reg16 n := by
  cases hr : s.repActive with
  | true =>
    rw [hr, Bool.and_true] at hn
    exact runString_keepsView (view := fun t => t.reg16 n) he (fun _ => State.reg16_countDown hn) stop s
  | false => simp only [State.runString, hr, Bool.false_eq_true, if_false, he]

/-! ### The pass -/

theorem reg16_passBlind (n : BitVec 3) : PassBlind fun t => t.reg16 n where
  ip _ _ := rfl
  endPass _ := rfl
  raiseFault _ _ _ _ _ := rfl

theorem run_keepsReg {r : Result} (hr : r.KeepsView (fun t => t.reg16 n) s) :
    KeepsView (fun t => t.reg16 n) s (run h s r) := run_keepsView (reg16_passBlind n) hr

theorem runTable_keepsReg {r : Result} (hr : r.KeepsView (fun t => t.reg16 n) s) :
    KeepsView (fun t => t.reg16 n) s (runTable h s r) := runTable_keepsView (reg16_passBlind n) (fun _ => rfl) hr

theorem runRmTable_keepsReg {f : Operand → BitVec 3 → Result}
    (hf : ∀ o reg, s.resolve h = .operands o reg → (f o reg).KeepsView (fun t => t.reg16 n) s) :
    KeepsView (fun t => t.reg16 n) s (runRmTable h s f) :=
  runRmTable_keepsView (reg16_passBlind n) (fun _ => rfl) hf

/-- A handler of a ModRM operand that leaves a state. -/
theorem runRm_done_keepsReg {g : Operand → BitVec 3 → State}
    (hg : ∀ o reg, s.resolve h = .operands o reg → (g o reg).reg16 n = s.reg16 n) :
    KeepsView (fun t => t.reg16 n) s (runRm h s fun o reg => .done (g o reg)) :=
  runRm_keepsView (reg16_passBlind n) fun o reg ho => Result.keepsView_done (hg o reg ho)

/-- A handler that leaves its result in its ModRM operand. -/
theorem runRm_keepsReg_of_rmHolds {g : Operand → BitVec 3 → State} (hn : rmHolds w h n = false)
    (hg : ∀ o reg, o.Misses w n → (g o reg).reg16 n = s.reg16 n) :
    KeepsView (fun t => t.reg16 n) s (runRm h s fun o reg => .done (g o reg)) :=
  runRm_done_keepsReg fun o reg ho => hg o reg (Operand.misses_of_rmHolds hn ho)

theorem runRmTable_keepsReg_of_rmHolds {g : Operand → BitVec 3 → State} (hn : rmHolds w h n = false)
    (hg : ∀ o reg, o.Misses w n → (g o reg).reg16 n = s.reg16 n) :
    KeepsView (fun t => t.reg16 n) s (runRmTable h s fun o reg => .done (g o reg)) :=
  runRmTable_keepsReg fun o reg ho => Result.keepsView_done (hg o reg (Operand.misses_of_rmHolds hn ho))

end

end Sys2Proof.Machine
end

section
/-! The frame of the general registers, instruction by instruction (O53). -/

namespace Sys2Proof.Machine

open Sys2Proof.Spec

/-- Every instruction keeps the general registers that `writesReg` does not name for it, under any tables (10_state.md R25,
R26). -/
theorem exec_keepsReg (i : Instr) (s : State) (n : BitVec 3) (hn : writesReg i s n = false) :
    KeepsView (fun t => t.reg16 n) s (exec i s) := by
  cases i with
  | addRmReg h | orRmReg h | adcRmReg h | sbbRmReg h | andRmReg h | subRmReg h | xorRmReg h =>
    exact runRm_done_keepsReg fun _ _ ho => State.reg16_alu (.inr (Operand.misses_direct hn ho)) _ _
  | addRmImm h imm | orRmImm h imm | adcRmImm h imm | sbbRmImm h imm | andRmImm h imm | subRmImm h imm
  | xorRmImm h imm => exact runRm_keepsReg_of_rmHolds hn fun _ _ ho => State.reg16_alu (.inr ho) _ _
  | addAccImm h imm | orAccImm h imm | adcAccImm h imm | sbbAccImm h imm | andAccImm h imm | subAccImm h imm
  | xorAccImm h imm =>
    exact run_keepsReg (Result.keepsView_done (State.reg16_alu (.inr (Operand.misses_acc hn)) _ _))
  | cmpRmReg h | cmpRmImm h imm => exact runRm_done_keepsReg fun _ _ _ => State.reg16_alu (.inl rfl) _ _
  | cmpAccImm h imm => exact run_keepsReg (Result.keepsView_done (State.reg16_alu (.inl rfl) _ _))
  | testRmReg h | testRmImm h imm => exact runRm_done_keepsReg fun _ _ _ => rfl
  | testAccImm h imm => exact run_keepsReg (Result.keepsView_done rfl)
  | incRm h | decRm h => exact runRm_keepsReg_of_rmHolds hn fun _ _ ho => State.reg16_incDec ho _ _
  | incReg h | decReg h =>
    exact run_keepsReg (Result.keepsView_done (State.reg16_incDec (Operand.misses_reg (w := .word) hn) _ _))
  | neg h => exact runRm_keepsReg_of_rmHolds hn fun _ _ ho => State.reg16_negate ho
  | rolOne h | rolCl h | rorOne h | rorCl h | rclOne h | rclCl h | rcrOne h | rcrCl h | shlOne h | shlCl h | shrOne h
  | shrCl h | sarOne h | sarCl h => exact runRm_keepsReg_of_rmHolds hn fun _ _ ho => State.reg16_shift ho _ _
  | not h | movRmImm h imm | movRmSreg h =>
    exact runRmTable_keepsReg_of_rmHolds hn fun _ _ ho => State.reg16_writeOp ho _
  | mul h | imul h =>
    exact runRmTable_keepsReg fun _ _ _ => Result.keepsView_done (State.reg16_setProduct hn _)
  | div h => exact runRmTable_keepsReg fun _ _ _ => (s.divide_isDivision h.width _).keepsReg hn
  | idiv h => exact runRmTable_keepsReg fun _ _ _ => (s.divideSigned_isDivision h.width _).keepsReg hn
  | daa h | das h | aad h imm => exact run_keepsReg (Result.keepsView_done (State.reg16_of_setReg16 hn rfl))
  | aam h imm =>
    refine run_keepsReg ?_
    split
    · exact Result.keepsView_raise _ _ _
    · exact Result.keepsView_done (State.reg16_of_setReg16 hn rfl)
  | aaa h | aas h => exact runTable_keepsReg (Result.keepsView_done (State.reg16_asciiAdjust hn _ _))
  | xlat h | cbw h | cwd h | lahf h | popf h =>
    exact runTable_keepsReg (Result.keepsView_done (State.reg16_of_setReg16 hn rfl))
  | movRmReg h =>
    exact runRmTable_keepsReg fun _ _ ho => Result.keepsView_done (State.reg16_writeOp (Operand.misses_direct hn ho) _)
  | movRegImm h imm => exact runTable_keepsReg (Result.keepsView_done (State.reg16_setReg hn _))
  | movMoffs h addr =>
    refine runTable_keepsReg (Result.keepsView_done ?_)
    unfold Head.dir
    cases hd : h.op.getLsbD 1 with
    | true => rfl
    | false =>
      have h0 : (n == 0) = false := by simpa only [writesReg, hd, Bool.not_false, Bool.true_and] using hn
      exact State.reg16_writeOp (Operand.misses_acc h0) _
  | movSregRm h =>
    exact runRmTable_keepsReg fun _ _ _ => Result.keepsView_done (State.reg16_congr (by simp) n)
  | xchgRmReg h =>
    obtain ⟨hrm, hreg⟩ := Bool.or_eq_false_iff.mp hn
    exact runRmTable_keepsReg fun _ _ ho => Result.keepsView_done
      ((State.reg16_setReg (holds_of_regHolds hreg ho) _).trans
        (State.reg16_writeOp (Operand.misses_of_rmHolds hrm ho) _))
  | xchgAx h =>
    obtain ⟨h0, hr⟩ := Bool.or_eq_false_iff.mp hn
    exact runTable_keepsReg (Result.keepsView_done (State.reg16_of_setReg16_setReg16 h0 hr rfl))
  | lea h =>
    exact runRmTable_keepsReg fun _ _ ho => Result.keepsView_withMemory fun _ _ =>
      Result.keepsView_done (State.reg16_of_setReg16 (holds_of_regHolds (w := .word) hn ho) rfl)
  | les h | lds h =>
    exact runRmTable_keepsReg fun _ _ ho => Result.keepsView_withMemory fun _ _ =>
      Result.keepsView_done (State.reg16_of_setReg16 (holds_of_regHolds (w := .word) hn ho) rfl)
  | nop h | sahf h | clc h | stc h | cli h | sti h | cld h | std h | cmc h | hlt h | seg h q | repnz h | repz h =>
    exact runTable_keepsReg (Result.keepsView_done rfl)
  | jo h rel | jno h rel | jb h rel | jnb h rel | jz h rel | jnz h rel | jbe h rel | jnbe h rel | js h rel | jns h rel
  | jp h rel | jnp h rel | jl h rel | jnl h rel | jle h rel | jnle h rel =>
    exact runTable_keepsReg (condJump_keepsView (reg16_passBlind n) rel)
  | loopnz h rel | loopz h rel | loop h rel =>
    exact runTable_keepsReg (loopJump_keepsView (reg16_passBlind n) (fun _ => State.reg16_countDown hn) _ rel)
  | jcxz h rel => exact runTable_keepsReg (jumpIf_keepsView (reg16_passBlind n) rfl _ rel)
  | jmpRel8 h rel | jmpRel16 h rel | jmpFar h off seg => exact runTable_keepsReg (Result.keepsView_jump rfl)
  | jmpRm h => exact runRmTable_keepsReg fun _ _ _ => Result.keepsView_jump rfl
  | jmpFarRm h =>
    exact runRmTable_keepsReg fun _ _ _ => Result.keepsView_withMemory fun _ _ => Result.keepsView_jump rfl
  | callRel h rel | callFar h off seg | ret h | retImm h imm | retf h | retfImm h imm | iret h | int3 h =>
    exact runTable_keepsReg (Result.keepsView_jump (State.reg16_of_setReg16 hn rfl))
  | callRm h => exact runRmTable_keepsReg fun _ _ _ => Result.keepsView_jump (State.reg16_of_setReg16 hn rfl)
  | callFarRm h =>
    exact runRmTable_keepsReg fun _ _ _ => Result.keepsView_withMemory fun _ _ =>
      Result.keepsView_jump (State.reg16_of_setReg16 hn rfl)
  | int h vector =>
    refine runTable_keepsReg ?_
    split
    · exact Result.keepsView_raise _ _ _
    · exact Result.keepsView_jump (State.reg16_deliver hn _ _)
  | into h =>
    refine runTable_keepsReg ?_
    split
    · next hof => exact Result.keepsView_jump (State.reg16_deliver (by simpa [writesReg, hof] using hn) _ _)
    · exact Result.keepsView_done rfl
  | movs h =>
    obtain ⟨h67, h1⟩ := Bool.or_eq_false_iff.mp hn
    obtain ⟨h6, h7⟩ := Bool.or_eq_false_iff.mp h67
    exact runTable_keepsReg (Result.keepsView_done
      (State.reg16_runString h1 (fun _ => State.reg16_movsElement h6 h7) _))
  | cmps h =>
    obtain ⟨h67, h1⟩ := Bool.or_eq_false_iff.mp hn
    obtain ⟨h6, h7⟩ := Bool.or_eq_false_iff.mp h67
    exact run_keepsReg (Result.keepsView_done (State.reg16_runString h1 (fun _ => State.reg16_cmpsElement h6 h7) _))
  | stos h =>
    obtain ⟨h7, h1⟩ := Bool.or_eq_false_iff.mp hn
    exact runTable_keepsReg (Result.keepsView_done (State.reg16_runString h1 (fun _ => State.reg16_stosElement h7) _))
  | scas h =>
    obtain ⟨h7, h1⟩ := Bool.or_eq_false_iff.mp hn
    exact run_keepsReg (Result.keepsView_done (State.reg16_runString h1 (fun _ => State.reg16_scasElement h7) _))
  | lods h =>
    obtain ⟨h06, h1⟩ := Bool.or_eq_false_iff.mp hn
    obtain ⟨h0, h6⟩ := Bool.or_eq_false_iff.mp h06
    exact runTable_keepsReg (Result.keepsView_done
      (State.reg16_runString h1 (fun _ => State.reg16_lodsElement h0 h6) _))
  | pushReg h =>
    refine runTable_keepsReg (Result.keepsView_done ?_)
    split <;> exact State.reg16_push hn _
  | pushRm h =>
    refine runRmTable_keepsReg fun _ _ _ => Result.keepsView_done ?_
    split <;> exact State.reg16_push hn _
  | pushSreg h q | pushf h => exact runTable_keepsReg (Result.keepsView_done (State.reg16_push hn _))
  | popReg h =>
    obtain ⟨h4, hr⟩ := Bool.or_eq_false_iff.mp hn
    exact runTable_keepsReg (Result.keepsView_done (State.reg16_of_setReg16_setReg16 h4 hr rfl))
  | popSreg h q =>
    exact runTable_keepsReg (Result.keepsView_done ((State.reg16_congr (by simp) n).trans (State.reg16_drop hn)))
  | popRm h =>
    obtain ⟨h4, hrm⟩ := Bool.or_eq_false_iff.mp hn
    exact runRmTable_keepsReg fun _ _ ho => Result.keepsView_done
      ((State.reg16_writeOp (Operand.misses_of_rmHolds hrm ho) _).trans (State.reg16_drop h4))
  | inImm h port | inDx h | outImm h port | outDx h | reservedMember h =>
    exact run_keepsReg (Result.keepsView_raise _ _ _)
  | reservedOpcode h | reservedWait h | reservedLock h | reservedEsc h =>
    exact finish_keepsView (reg16_passBlind n) (Result.keepsView_raise _ _ _)

/-- Settles O53, instruction by instruction. -/
theorem generalRegistersKept : Obligations.GeneralRegistersKept :=
  fun i s t n he hn => exec_keepsReg i s n hn t he

end Sys2Proof.Machine
end

section
/-! The flag logic against exact integer arithmetic (10_state.md R34, R35, R37): the carries of a recorded triple, SZP
under `T_REF`, and what the two-operand template leaves for ADD, ADC, SUB, SBB and CMP. -/

namespace Sys2Proof.Machine

open Sys2Proof.Laws Sys2Proof.Spec

/-! ### Operands fit their width -/

theorem State.reg_lt (s : State) (w : Width) (n : BitVec 3) : s.reg w n < 2 ^ w.bits := by
  cases w <;> exact BitVec.isLt _

theorem State.readOp_lt (s : State) (w : Width) (o : Operand) : s.readOp w o < 2 ^ w.bits := by
  cases o with
  | reg n => exact s.reg_lt w n
  | mem ea a => cases w <;> exact BitVec.isLt _

theorem narrow_lt (w : Width) (z : Int) : narrow w z < 2 ^ w.bits := by
  unfold narrow
  have hpos : (0 : Int) < (2 ^ w.bits : Nat) := by positivity
  have := Int.emod_nonneg z hpos.ne'
  have := Int.emod_lt_of_pos z hpos
  omega

/-! ### SF, ZF, PF (10_state.md R34) -/

/-- `PARITY_FLAG` of `T_REF` is 1 exactly where the number of one bits is even (30_encoding.md R117). -/
theorem parityFlagRows_are : rowsAre (fun k => (evenOnes k).toNat) parityFlagRows 0 = true := by decide +kernel

/-- Only the low byte is looked at. -/
theorem evenOnes_mod (v : Nat) : evenOnes (v % 256) = evenOnes v := by
  have hbits : ∀ i ∈ List.range 8, (v % 256).testBit i = v.testBit i := fun i hi => by
    rw [show v % 256 = v % 2 ^ 8 from rfl, Nat.testBit_mod_two_pow, decide_eq_true (List.mem_range.mp hi),
      Bool.true_and]
  unfold evenOnes
  rw [List.filter_congr hbits]

theorem parityOf_tRef (v : Nat) : parityOf tRef v = evenOnes v := by
  have hrow : (lookup tRef.parityFlag (BitVec.ofNat 8 v)).toNat = (evenOnes (v % 256)).toNat :=
    lookup_rowsAre parityFlagRows_length parityFlagRows_are (BitVec.ofNat 8 v)
  rw [evenOnes_mod] at hrow
  unfold parityOf
  generalize lookup tRef.parityFlag (BitVec.ofNat 8 v) = entry at hrow ⊢
  have hentry : entry = BitVec.ofNat 8 (evenOnes v).toNat :=
    BitVec.eq_of_toNat_eq (by rw [hrow]; cases evenOnes v <;> rfl)
  rw [hentry]
  cases evenOnes v <;> rfl

/-- The top bit of a value that fits is its sign (00_scope.md R8). -/
theorem topBit_eq_decide {w : Width} {v : Nat} (hv : v < 2 ^ w.bits) : topBit w v = decide (2 ^ (w.bits - 1) ≤ v) := by
  unfold topBit
  rw [Nat.testBit_eq_decide_div_mod_eq, decide_eq_decide]
  cases w <;> simp only [Width.bits, Nat.reduceSub] at hv ⊢ <;> omega

/-- Policy SZP under `T_REF` for a value that fits (10_state.md R34). -/
theorem Flags.szp_tRef {w : Width} {v : Nat} (hv : v < 2 ^ w.bits) (f : Flags) : f.szp tRef w v = Spec.szp w v f := by
  unfold Flags.szp Spec.szp
  rw [topBit_eq_decide hv, Nat.mod_eq_of_lt hv, parityOf_tRef]

/-! ### The carries of a triple (10_state.md R35) -/

/-- Bit `i` of the carries of a sum is the carry out of the bits below it. -/
theorem Triple.testBit_carries_of_add {n i : Nat} (hi : i < n) {t : Triple} {c : Bool}
    (ht : (t.dest + t.src + c.toNat) % 2 ^ n = t.result) :
    t.carries.testBit i = decide (2 ^ i ≤ t.dest % 2 ^ i + t.src % 2 ^ i + c.toNat) := by
  have hsum := BitVec.getLsbD_add_add_bool hi (BitVec.ofNat n t.dest) (BitVec.ofNat n t.src) c
  have hresult : BitVec.ofNat n t.dest + BitVec.ofNat n t.src + BitVec.setWidth n (BitVec.ofBool c) =
      BitVec.ofNat n t.result := by
    apply BitVec.eq_of_toNat_eq
    simp [← ht]
  have hmod (x : Nat) : x % 2 ^ n % 2 ^ i = x % 2 ^ i := Nat.mod_mod_of_dvd x (Nat.pow_dvd_pow 2 hi.le)
  simp only [hresult, BitVec.getLsbD_ofNat, hi, decide_true, Bool.true_and, BitVec.carry, BitVec.toNat_ofNat, hmod,
    ge_iff_le] at hsum
  unfold Triple.carries
  rw [Nat.testBit_xor, Nat.testBit_xor, hsum]
  generalize decide (2 ^ i ≤ t.dest % 2 ^ i + t.src % 2 ^ i + c.toNat) = carry
  cases t.dest.testBit i <;> cases t.src.testBit i <;> cases carry <;> rfl

/-- A sum of two numbers below `p` and a carry reaches `p` exactly when what is left of it modulo `p` is below the
second number and the carry: the borrow of the difference is the carry of the sum. -/
theorem le_add_iff_mod_lt {p x y : Nat} (hx : x < p) (hy : y < p) (c : Bool) :
    p ≤ x + y + c.toNat ↔ (x + y + c.toNat) % p < y + c.toNat := by
  have hc := c.toNat_le
  rcases Nat.lt_or_ge (x + y + c.toNat) p with h | h
  · rw [Nat.mod_eq_of_lt h]; omega
  · rw [Nat.mod_eq_sub_mod h, Nat.mod_eq_of_lt (by omega)]; omega

/-- Bit `i` of the carries of a difference is the borrow out of the bits below it. -/
theorem Triple.testBit_carries_of_sub {n i : Nat} (hi : i < n) {t : Triple} {c : Bool}
    (ht : (t.result + t.src + c.toNat) % 2 ^ n = t.dest) :
    t.carries.testBit i = decide (t.dest % 2 ^ i < t.src % 2 ^ i + c.toNat) := by
  have hswap : t.carries = Triple.carries ⟨t.src, t.result, t.dest⟩ := by
    simp only [Triple.carries, Nat.xor_comm t.dest]
  have hp : 0 < 2 ^ i := by positivity
  have hdest : t.dest % 2 ^ i = (t.result % 2 ^ i + t.src % 2 ^ i + c.toNat) % 2 ^ i := by
    rw [← ht, Nat.mod_mod_of_dvd _ (Nat.pow_dvd_pow 2 hi.le), Nat.add_mod, Nat.add_mod t.result, Nat.mod_add_mod,
      Nat.add_mod_mod]
  rw [hswap, Triple.testBit_carries_of_add hi ht, decide_eq_decide, hdest]
  exact le_add_iff_mod_lt (Nat.mod_lt _ hp) (Nat.mod_lt _ hp) c

/-! ### AF and OF (10_state.md R35, R37) -/

theorem two_pow_bits (w : Width) : 2 ^ w.bits = 2 * 2 ^ (w.bits - 1) := by cases w <;> rfl

/-- The signed reading of a number by its top bit (00_scope.md R9). -/
theorem signedOf_cases (w : Width) (v : Nat) :
    v < 2 ^ (w.bits - 1) ∧ signedOf w v = v ∨ 2 ^ (w.bits - 1) ≤ v ∧ signedOf w v = v - 2 ^ w.bits := by
  unfold signedOf
  split
  · exact .inl ⟨by assumption, rfl⟩
  · exact .inr ⟨by omega, by push_cast; rfl⟩

/-- A sum overflows exactly when the carries into and out of the top bit differ (10_state.md R35). -/
theorem signedOverflow_add {w : Width} {d v : Nat} (hd : d < 2 ^ w.bits) (hv : v < 2 ^ w.bits) (c : Bool) :
    signedOverflow w (signedOf w d + signedOf w v + c.toNat) =
      (decide (2 ^ w.bits ≤ d + v + c.toNat) ^^
        decide (2 ^ (w.bits - 1) ≤ d % 2 ^ (w.bits - 1) + v % 2 ^ (w.bits - 1) + c.toNat)) := by
  have hc := c.toNat_le
  have hsd := signedOf_cases w d
  have hsv := signedOf_cases w v
  rw [← Bool.coe_iff_coe]
  simp only [signedOverflow, Bool.xor_iff_ne, ne_eq, decide_eq_decide, decide_eq_true_eq]
  cases w <;> simp only [Width.bits, Nat.reduceSub] at * <;> omega

/-- A difference overflows exactly when the borrows into and out of the top bit differ (10_state.md R35). -/
theorem signedOverflow_sub {w : Width} {d v : Nat} (hd : d < 2 ^ w.bits) (hv : v < 2 ^ w.bits) (c : Bool) :
    signedOverflow w (signedOf w d - signedOf w v - c.toNat) =
      (decide (d < v + c.toNat) ^^ decide (d % 2 ^ (w.bits - 1) < v % 2 ^ (w.bits - 1) + c.toNat)) := by
  have hc := c.toNat_le
  have hsd := signedOf_cases w d
  have hsv := signedOf_cases w v
  rw [← Bool.coe_iff_coe]
  simp only [signedOverflow, Bool.xor_iff_ne, ne_eq, decide_eq_decide, decide_eq_true_eq]
  cases w <;> simp only [Width.bits, Nat.reduceSub] at * <;> omega

/-- A flag that is off where the result is the destination, and elsewhere says that two carries differ: the carries are
equal in the first case too. -/
theorem ite_eq_xor {p : Prop} [Decidable p] {a b : Bool} (h : p → a = b) :
    (if p then false else a ^^ b) = (a ^^ b) := by
  split
  · next hp => rw [h hp, Bool.xor_self]
  · rfl

/-- Policy ARITH after a sum: AF is the carry out of bit 3, OF the two's complement overflow. -/
theorem Flags.arith_of_add {w : Width} {d v : Nat} (hd : d < 2 ^ w.bits) (hv : v < 2 ^ w.bits) (c : Bool) {f : Flags}
    (hf : f.cf = decide (2 ^ w.bits ≤ d + v + c.toNat)) :
    f.arith w ⟨v, d, (d + v + c.toNat) % 2 ^ w.bits⟩ =
      { f with
        af := decide (16 ≤ d % 16 + v % 16 + c.toNat)
        of := signedOverflow w (signedOf w d + signedOf w v + c.toNat) } := by
  have h4 : 4 < w.bits := by cases w <;> decide
  have htop : w.bits - 1 < w.bits := by omega
  unfold Flags.arith topBit
  rw [Triple.testBit_carries_of_add h4 rfl, Triple.testBit_carries_of_add htop rfl, signedOverflow_add hd hv, hf,
    ite_eq_xor]
  · rfl
  · intro hr
    have hc := c.toNat_le
    rw [decide_eq_decide]
    cases w <;> simp only [Width.bits, Nat.reduceSub] at * <;> omega

/-- Policy ARITH after a difference: AF is the borrow out of bit 3, OF the two's complement overflow. -/
theorem Flags.arith_of_sub {w : Width} {d v : Nat} (hd : d < 2 ^ w.bits) (hv : v < 2 ^ w.bits) (c : Bool) {f : Flags}
    (hf : f.cf = decide (d < v + c.toNat)) :
    f.arith w ⟨v, d, narrow w ((d : Int) - v - c.toNat)⟩ =
      { f with
        af := decide (d % 16 < v % 16 + c.toNat)
        of := signedOverflow w (signedOf w d - signedOf w v - c.toNat) } := by
  have hc := c.toNat_le
  have h4 : 4 < w.bits := by cases w <;> decide
  have htop : w.bits - 1 < w.bits := by omega
  have hback : (narrow w ((d : Int) - v - c.toNat) + v + c.toNat) % 2 ^ w.bits = d := by
    cases w <;> simp only [narrow, Width.bits] at * <;> omega
  unfold Flags.arith topBit
  rw [Triple.testBit_carries_of_sub h4 hback, Triple.testBit_carries_of_sub htop hback, signedOverflow_sub hd hv, hf,
    ite_eq_xor]
  · rfl
  · intro hr
    rw [decide_eq_decide]
    cases w <;> simp only [narrow, Width.bits, Nat.reduceSub] at * <;> omega

/-! ### The operations (10_state.md R37; 41_arithmetic.md R170 to R175) -/

/-- The operations of 41_arithmetic.md R171 to R175. -/
def arithOps : List AluOp := [.add, .adc, .sub, .sbb, .cmp]

/-- The result is the exact one modulo `2^W`. -/
theorem AluOp.result_eq_exact {op : AluOp} (h : op ∈ arithOps) (w : Width) (d v : Nat) (c : Bool) :
    op.result w d v c = (exact op d v c.toNat % 2 ^ w.bits).toNat := by
  simp only [arithOps, List.mem_cons, List.not_mem_nil, or_false] at h
  rcases h with rfl | rfl | rfl | rfl | rfl
  case inl | inr.inl => simp only [AluOp.result, exact]; norm_cast
  all_goals simp only [AluOp.result, exact, narrow]; norm_cast

theorem AluOp.result_lt {op : AluOp} (h : op ∈ arithOps) (w : Width) (d v : Nat) (c : Bool) :
    op.result w d v c < 2 ^ w.bits := by
  simp only [arithOps, List.mem_cons, List.not_mem_nil, or_false] at h
  rcases h with rfl | rfl | rfl | rfl | rfl
  case inl | inr.inl => exact Nat.mod_lt _ (by positivity)
  all_goals exact narrow_lt w _

/-- The policy entry of an operation under `T_REF` (30_encoding.md R122). -/
def AluOp.policy (op : AluOp) : Byte := BitVec.ofNat 8 (flagPolicy (8 * op.index))

/-- CF by the handler; then ARITH, by the handler or the policy; then SZP, by the policy. -/
theorem AluOp.flags_eq_szp_arith {op : AluOp} (h : op ∈ arithOps) (T : Tables) (w : Width) (d v : Nat) (f : Flags) :
    op.flags T w op.policy d v f =
      (({ f with cf := op.carry w d v f.cf } : Flags).arith w (op.triple w d v f.cf)).szp T w
        (op.result w d v f.cf) := by
  simp only [arithOps, List.mem_cons, List.not_mem_nil, or_false] at h
  rcases h with rfl | rfl | rfl | rfl | rfl <;> rfl

section
variable {op : AluOp} {w : Width} {d v : Nat} {f : Flags}

/-- The flags that policy ARITH leaves with CF, against exact arithmetic: the carry or borrow out of the operand and
out of bit 3, and the two's complement overflow (10_state.md R35, R37). -/
def exactArith (op : AluOp) (w : Width) (d v : Nat) (f : Flags) : Flags :=
  { f with
    cf := decide (exact op d v f.cf.toNat < 0 ∨ 2 ^ w.bits ≤ exact op d v f.cf.toNat)
    af := decide (exact op (d % 16 : Nat) (v % 16 : Nat) f.cf.toNat < 0 ∨
      16 ≤ exact op (d % 16 : Nat) (v % 16 : Nat) f.cf.toNat)
    of := signedOverflow w (exact op (signedOf w d) (signedOf w v) f.cf.toNat) }

/-- An operation that adds with a carry `c` in. -/
theorem AluOp.arith_of_sum (hd : d < 2 ^ w.bits) (hv : v < 2 ^ w.bits) {c : Bool}
    (hcarry : op.carry w d v f.cf = decide (2 ^ w.bits ≤ d + v + c.toNat))
    (hresult : op.result w d v f.cf = (d + v + c.toNat) % 2 ^ w.bits)
    (hexact : ∀ x y : Int, exact op x y f.cf.toNat = x + y + c.toNat) :
    ({ f with cf := op.carry w d v f.cf } : Flags).arith w (op.triple w d v f.cf) = exactArith op w d v f := by
  have hcf : decide (2 ^ w.bits ≤ d + v + c.toNat) =
      decide ((d : Int) + v + c.toNat < 0 ∨ 2 ^ w.bits ≤ (d : Int) + v + c.toNat) := by
    rw [decide_eq_decide]; norm_cast; omega
  have haf : decide (16 ≤ d % 16 + v % 16 + c.toNat) =
      decide (((d % 16 : Nat) : Int) + (v % 16 : Nat) + c.toNat < 0 ∨
        16 ≤ ((d % 16 : Nat) : Int) + (v % 16 : Nat) + c.toNat) := by
    rw [decide_eq_decide]; omega
  rw [AluOp.triple, hresult, Flags.arith_of_add hd hv c hcarry, hcarry, haf, hcf]
  simp only [exactArith, hexact]

/-- An operation that subtracts with a borrow `c` in. -/
theorem AluOp.arith_of_difference (hd : d < 2 ^ w.bits) (hv : v < 2 ^ w.bits) {c : Bool}
    (hcarry : op.carry w d v f.cf = decide (d < v + c.toNat))
    (hresult : op.result w d v f.cf = narrow w ((d : Int) - v - c.toNat))
    (hexact : ∀ x y : Int, exact op x y f.cf.toNat = x - y - c.toNat) :
    ({ f with cf := op.carry w d v f.cf } : Flags).arith w (op.triple w d v f.cf) = exactArith op w d v f := by
  have hcf : decide (d < v + c.toNat) =
      decide ((d : Int) - v - c.toNat < 0 ∨ 2 ^ w.bits ≤ (d : Int) - v - c.toNat) := by
    rw [decide_eq_decide]; zify at hd; omega
  have haf : decide (d % 16 < v % 16 + c.toNat) =
      decide (((d % 16 : Nat) : Int) - (v % 16 : Nat) - c.toNat < 0 ∨
        16 ≤ ((d % 16 : Nat) : Int) - (v % 16 : Nat) - c.toNat) := by
    rw [decide_eq_decide]; omega
  rw [AluOp.triple, hresult, Flags.arith_of_sub hd hv c hcarry, hcarry, haf, hcf]
  simp only [exactArith, hexact]

theorem AluOp.arith_eq_exactArith (h : op ∈ arithOps) (hd : d < 2 ^ w.bits) (hv : v < 2 ^ w.bits) :
    ({ f with cf := op.carry w d v f.cf } : Flags).arith w (op.triple w d v f.cf) = exactArith op w d v f := by
  simp only [arithOps, List.mem_cons, List.not_mem_nil, or_false] at h
  rcases h with rfl | rfl | rfl | rfl | rfl
  · exact arith_of_sum hd hv (c := false) rfl rfl fun _ _ => (add_zero _).symm
  · exact arith_of_sum hd hv (c := f.cf) rfl rfl fun _ _ => rfl
  · exact arith_of_difference hd hv (c := false) rfl (congrArg (narrow w) (sub_zero _).symm) fun _ _ =>
      (sub_zero _).symm
  · exact arith_of_difference hd hv (c := f.cf) rfl rfl fun _ _ => rfl
  · exact arith_of_difference hd hv (c := false) rfl (congrArg (narrow w) (sub_zero _).symm) fun _ _ =>
      (sub_zero _).symm

/-- The flags of the five operations under `T_REF` (41_arithmetic.md R171 to R175). -/
theorem AluOp.flags_eq_arithFlags (h : op ∈ arithOps) (hd : d < 2 ^ w.bits) (hv : v < 2 ^ w.bits) (f : Flags) :
    op.flags tRef w op.policy d v f = arithFlags op w d v f := by
  rw [flags_eq_szp_arith h, arith_eq_exactArith h hd hv, Flags.szp_tRef (result_lt h w d v f.cf), result_eq_exact h]
  rfl

end

end Sys2Proof.Machine
end


section
/-! ADD, ADC, SUB, SBB, CMP, INC, DEC, NEG and NOT (41_arithmetic.md R170 to R178; 42_logical.md R204): O20 to O22. -/

namespace Sys2Proof.Machine

open Sys2Proof.Laws Sys2Proof.Spec

/-! ### The pass of a handler that sets its flags itself -/

section
variable {i : Instr} {h : Head} {s t u : State} {m : ModRM} {f : Operand → BitVec 3 → Result}

theorem runRm_advance (ht : s.tables = tRef) (hw : i.wellFormed = true) (hr : isReserved i = false) (hh : i.head = h)
    (hm : h.modrm = some m) (hf : f (operand s m.ea) m.reg = .done t) (hip : t.ip = s.ip) :
    runRm h s f = .next (advance i t) := by
  rw [runRm_tRef ht hm (ea_wellFormed hw hh hm), hf, finish_done_advance ht hw hr hh hip]

theorem run_advance (ht : s.tables = tRef) (hw : i.wellFormed = true) (hr : isReserved i = false) (hh : i.head = h)
    (hm : h.modrm = none) (hu : u = t) (hip : t.ip = s.ip) : run h s (.done u) = .next (advance i t) := by
  rw [run_noModRM hm, hu, finish_done_advance ht hw hr hh hip]

end

/-! ### The two-operand template (41_arithmetic.md R170), for all eight operations -/

section
variable {op : AluOp} {s : State} {h : Head} {b : Byte} {m : ModRM} {imm : Word} {w : Width}

theorem wellFormed_aluRmReg : (aluRmReg op h).wellFormed = (h.opIn (8 * op.index) (8 * op.index + 3) && h.hasRm) := by
  cases op <;> rfl

theorem wellFormed_aluAccImm : (aluAccImm op h imm).wellFormed =
    (h.opIn (8 * op.index + 4) (8 * op.index + 5) && h.noRm && immFits h.width imm) := by
  cases op <;> rfl

theorem wellFormed_aluRmImm : (aluRmImm op h imm).wellFormed =
    (h.opIn 0x80 0x83 && h.hasDigit (BitVec.ofNat 3 op.index) && immFits h.aluImmWidth imm) := by
  cases op <;> rfl

theorem exec_aluRmReg : exec (aluRmReg op h) s = runRm h s fun rm reg =>
    .done (s.alu op h.width (s.stdPolicy h.op) (direct h.dir rm reg).1 (s.readOp h.width (direct h.dir rm reg).2)) := by
  cases op <;> rfl

theorem exec_aluAccImm : exec (aluAccImm op h imm) s =
    run h s (.done (s.alu op h.width (s.stdPolicy h.op) (.reg 0) (immValue h.width imm))) := by
  cases op <;> rfl

theorem exec_aluRmImm : exec (aluRmImm op h imm) s = runRm h s fun rm _ =>
    .done (s.alu op h.width (s.stdPolicy (AluOp.opcode op)) rm (Head.aluImm h imm)) := by
  cases op <;> rfl

theorem AluOp.index_le (op : AluOp) : op.index ≤ 7 := by cases op <;> decide

/-- The entries of the opcode bytes of an operation are all that of its first one (30_encoding.md R122). -/
theorem stdPolicy_alu (ht : s.tables = tRef) (ho : h.opIn (8 * op.index) (8 * op.index + 5) = true) :
    s.stdPolicy h.op = op.policy := by
  have hrow : flagPolicy h.op.toNat = flagPolicy (8 * op.index) := by cases op <;> exact range_of_in ho rfl
  exact stdPolicy_tRef ht hrow

theorem stdPolicy_aluOpcode (ht : s.tables = tRef) : s.stdPolicy (AluOp.opcode op) = op.policy :=
  stdPolicy_alu (h := ⟨AluOp.opcode op, none⟩) ht (by cases op <;> rfl)

theorem State.alu_ip (s : State) (op : AluOp) (w : Width) (p : Byte) (o : Operand) (v : Nat) :
    (s.alu op w p o v).ip = s.ip := by
  unfold State.alu
  split
  · rfl
  · exact State.writeOp_ip ..

theorem exec_aluRmReg_advance (ht : s.tables = tRef) (hw : (aluRmReg op ⟨b, some m⟩).wellFormed = true) :
    exec (aluRmReg op ⟨b, some m⟩) s = .next (advance (aluRmReg op ⟨b, some m⟩)
      (s.alu op (Width.ofBit (b.getLsbD 0)) op.policy (toOperand s ⟨b, some m⟩ m)
        (s.readOp (Width.ofBit (b.getLsbD 0)) (fromOperand s ⟨b, some m⟩ m)))) := by
  have ho := (both (wellFormed_aluRmReg ▸ hw)).1
  have hi := op.index_le
  rw [exec_aluRmReg]
  refine runRm_advance ht hw (by cases op <;> rfl) (by cases op <;> rfl) rfl ?_ (State.alu_ip ..)
  rw [direct_operand, Head.width_eq_bit0 ho (by omega),
    stdPolicy_alu ht (opIn_mono ho le_rfl (Nat.add_le_add_left (by decide) _))]

theorem exec_aluAccImm_advance (ht : s.tables = tRef) (hw : (aluAccImm op ⟨b, none⟩ imm).wellFormed = true) :
    exec (aluAccImm op ⟨b, none⟩ imm) s = .next (advance (aluAccImm op ⟨b, none⟩ imm)
      (s.alu op (Width.ofBit (b.getLsbD 0)) op.policy (.reg 0) imm.toNat)) := by
  obtain ⟨⟨ho, -⟩, hf⟩ := (both (wellFormed_aluAccImm ▸ hw)).imp_left both
  have hi := op.index_le
  rw [exec_aluAccImm]
  refine run_advance ht hw (by cases op <;> rfl) (by cases op <;> rfl) rfl ?_ (State.alu_ip ..)
  rw [immValue_of_fits hf, Head.width_eq_bit0 ho (by omega),
    stdPolicy_alu ht (opIn_mono ho (Nat.le_add_right _ _) le_rfl)]

/-- 80 to 82 take their immediate as it stands, 83 the byte sign-extended (30_encoding.md R110). -/
theorem aluImm_eq_groupImm (ho : h.opIn 0x80 0x83 = true) (hf : immFits h.aluImmWidth imm = true) :
    Head.aluImm h imm = groupImm h.op imm := by
  obtain ⟨op, m⟩ := h
  have hr : op = 0x80 ∨ op = 0x81 ∨ op = 0x82 ∨ op = 0x83 := by
    simp only [Head.opIn, Bool.and_eq_true, decide_eq_true_eq] at ho
    exact (show op.toNat = 0x80 ∨ op.toNat = 0x81 ∨ op.toNat = 0x82 ∨ op.toNat = 0x83 by omega).imp eqOp
      (.imp eqOp (.imp eqOp eqOp))
  have hlow : loByte imm = BitVec.ofNat 8 imm.toNat := by
    apply BitVec.eq_of_toNat_eq
    simp [loByte]
  have himm := immValue_of_fits hf
  rcases hr with rfl | rfl | rfl | rfl
  case inr.inr.inr => simp [Head.aluImm, Head.width, opWidth, Head.dir, Width.ofBit, groupImm, hlow, sext]
  all_goals simpa [Head.aluImm, Head.aluImmWidth, Head.width, opWidth, Head.dir, Width.ofBit, groupImm] using himm

theorem aluImm_lt : Head.aluImm h imm < 2 ^ h.width.bits := by
  unfold Head.aluImm
  split
  · next hw _ => rw [hw]; exact BitVec.isLt _
  · exact Nat.mod_lt _ (by positivity)

theorem exec_aluRmImm_advance (ht : s.tables = tRef) (hw : (aluRmImm op ⟨b, some m⟩ imm).wellFormed = true) :
    exec (aluRmImm op ⟨b, some m⟩ imm) s = .next (advance (aluRmImm op ⟨b, some m⟩ imm)
      (s.alu op (Width.ofBit (b.getLsbD 0)) op.policy (operand s m.ea) (groupImm b imm))) := by
  obtain ⟨⟨ho, -⟩, hf⟩ := (both (wellFormed_aluRmImm ▸ hw)).imp_left both
  rw [exec_aluRmImm]
  refine runRm_advance ht hw (by cases op <;> rfl) (by cases op <;> rfl) rfl ?_ (State.alu_ip ..)
  rw [aluImm_eq_groupImm ho hf, Head.width_eq_bit0 ho (by decide), stdPolicy_aluOpcode ht]

/-! ### ADD, ADC, SUB, SBB, CMP -/

/-- The template with one of the five operations leaves the exact result and flags. -/
theorem State.alu_eq_arithPost (ht : s.tables = tRef) (hop : op ∈ arithOps) {o : Operand} {v : Nat}
    (hv : v < 2 ^ w.bits) : s.alu op w op.policy o v = arithPost s op w o v := by
  simp only [State.alu, arithPost, ht, AluOp.flags_eq_arithFlags hop (s.readOp_lt w o) hv, AluOp.result_eq_exact hop]

end

/-- Settles O20, form by form: each is the template with a source that fits the width. -/
theorem arithmeticResults : Obligations.ArithmeticResults := by
  intro op s hop ht
  refine ⟨fun b m hw => ?_, fun b imm hw => ?_, fun b m imm hw => ?_⟩
  · rw [exec_aluRmReg_advance ht hw, State.alu_eq_arithPost ht hop (s.readOp_lt _ _)]
  · obtain ⟨⟨ho, -⟩, hf⟩ := (both (wellFormed_aluAccImm ▸ hw)).imp_left both
    have hi := op.index_le
    rw [Head.width_eq_bit0 ho (by omega)] at hf
    rw [exec_aluAccImm_advance ht hw, State.alu_eq_arithPost ht hop (of_decide_eq_true hf)]
  · obtain ⟨⟨ho, -⟩, hf⟩ := (both (wellFormed_aluRmImm ▸ hw)).imp_left both
    have hlt := aluImm_lt (h := ⟨b, some m⟩) (imm := imm)
    rw [aluImm_eq_groupImm ho hf, Head.width_eq_bit0 ho (by decide)] at hlt
    rw [exec_aluRmImm_advance ht hw, State.alu_eq_arithPost ht hop hlt]

/-! ### INC and DEC -/

/-- The exact result of INC or DEC of `v` (41_arithmetic.md R176, R177). -/
def stepOf (inc : Bool) (v : Nat) : Int := if inc then v + 1 else v - 1

/-- What INC or DEC of an operand leaves (41_arithmetic.md R176, R177), before the end of the pass. -/
def incDecPost (s : State) (w : Width) (o : Operand) (inc : Bool) : State :=
  let v := s.readOp w o
  let r := (stepOf inc v % 2 ^ w.bits).toNat
  { s.writeOp w o r with
    flags := Spec.szp w r
      { s.flags with
        af := if inc then decide (v % 16 = 15) else decide (v % 16 = 0)
        of := if inc then decide (v + 1 = 2 ^ (w.bits - 1)) else decide (v = 2 ^ (w.bits - 1)) } }

/-- Policy SZP alone. -/
theorem Flags.policy_szp (T : Tables) (w : Width) (t : Triple) (f : Flags) :
    f.policy T w 1 t = f.szp T w t.result := rfl

section
variable {s : State} {w : Width} {v : Nat}

theorem testBit_carries_inc (w : Width) (v : Nat) :
    (v ^^^ (v + 1) % 2 ^ w.bits ^^^ 1).testBit 4 = decide (v % 16 = 15) := by
  have h := Triple.testBit_carries_of_add (n := w.bits) (i := 4) (t := ⟨1, v, (v + 1) % 2 ^ w.bits⟩) (c := false)
    (by cases w <;> decide) rfl
  refine h.trans (decide_eq_decide.mpr ?_)
  simp only [Bool.toNat_false]
  omega

theorem testBit_carries_dec (hv : v < 2 ^ w.bits) :
    (v ^^^ narrow w ((v : Int) - 1) ^^^ 1).testBit 4 = decide (v % 16 = 0) := by
  have h := Triple.testBit_carries_of_sub (n := w.bits) (i := 4) (t := ⟨1, v, narrow w ((v : Int) - 1)⟩) (c := false)
    (by cases w <;> decide)
    (by cases w <;> simp only [narrow, Width.bits, Bool.toNat_false] at * <;> omega)
  refine h.trans (decide_eq_decide.mpr ?_)
  simp only [Bool.toNat_false]
  omega

theorem State.incDec_eq_incDecPost (ht : s.tables = tRef) (o : Operand) (inc : Bool) :
    s.incDec w 1 o inc = incDecPost s w o inc := by
  have hv := s.readOp_lt w o
  have hpos : 0 < 2 ^ (w.bits - 1) := by positivity
  cases inc with
  | true =>
    have hr : (s.readOp w o + 1) % 2 ^ w.bits = (((s.readOp w o : Nat) + 1 : Int) % 2 ^ w.bits).toNat := by norm_cast
    have hof : decide (s.readOp w o = 2 ^ (w.bits - 1) - 1) = decide (s.readOp w o + 1 = 2 ^ (w.bits - 1)) :=
      decide_eq_decide.mpr (by omega)
    have hlt : (s.readOp w o + 1) % 2 ^ w.bits < 2 ^ w.bits := Nat.mod_lt _ (by positivity)
    simp only [State.incDec, incDecPost, stepOf, Flags.policy_szp, ht, Flags.szp_tRef hlt, if_true, ← hr,
      testBit_carries_inc, hof]
  | false =>
    have hr : narrow w ((s.readOp w o : Int) - 1) = (((s.readOp w o : Nat) - 1 : Int) % 2 ^ w.bits).toNat := by
      unfold narrow; norm_cast
    simp only [State.incDec, incDecPost, stepOf, Flags.policy_szp, ht, Flags.szp_tRef (narrow_lt w _),
      Bool.false_eq_true, if_false, ← hr, testBit_carries_dec hv]

end

section
variable {s : State} {i : Instr} {b : Byte} {m : ModRM} {inc : Bool}

/-- INC and DEC of the register that the opcode byte names. -/
theorem run_incDec_advance (ht : s.tables = tRef) (hw : i.wellFormed = true) (hr : isReserved i = false)
    (hh : i.head = ⟨b, none⟩) (hp : flagPolicy b.toNat = 1) :
    run ⟨b, none⟩ s (.done (s.incDec .word (s.stdPolicy b) (.reg (Head.opReg ⟨b, none⟩)) inc)) =
      .next (advance i (incDecPost s .word (.reg (b.extractLsb' 0 3)) inc)) := by
  refine run_advance ht hw hr hh rfl ?_ (State.writeOp_ip ..)
  rw [stdPolicy_tRef ht hp]
  exact State.incDec_eq_incDecPost ht _ inc

/-- INC and DEC of FE and FF (30_encoding.md R114). -/
theorem runRm_incDec_advance (ht : s.tables = tRef) (hw : i.wellFormed = true) (hr : isReserved i = false)
    (hh : i.head = ⟨b, some m⟩) (ho : Head.opIn ⟨b, some m⟩ 0xFE 0xFF = true) {d : BitVec 3}
    (hd : Head.hasDigit ⟨b, some m⟩ d = true) (h01 : d = 0 ∨ d = 1) :
    (runRm ⟨b, some m⟩ s fun rm _ => .done (s.incDec (Head.width ⟨b, some m⟩)
      (s.stdPolicy (Head.lengthOpcode ⟨b, some m⟩)) rm inc)) =
      .next (advance i (incDecPost s (Width.ofBit (b.getLsbD 0)) (operand s m.ea) inc)) := by
  refine runRm_advance ht hw hr hh rfl ?_ (State.writeOp_ip ..)
  rw [stdPolicy_tRef ht (flagPolicy_incDec ho hd h01), Head.width_eq_bit0 ho (by decide)]
  exact congrArg Result.done (State.incDec_eq_incDecPost ht _ inc)

end

/-- Settles O21: the four instructions have one handler, with the entry 1 of `T_REF`. -/
theorem incrementResults : Obligations.IncrementResults := by
  intro s b ht
  refine ⟨fun i hi hw => ?_, fun m i hi hw => ?_⟩
  · simp only [List.mem_cons, List.not_mem_nil, or_false] at hi
    rcases hi with rfl | rfl
    · have hof (v : Nat) : decide (v + 1 = 2 ^ (Width.word.bits - 1)) = decide (v = 0x7FFF) :=
        decide_eq_decide.mpr (by simp only [Width.bits]; omega)
      refine (run_incDec_advance ht hw rfl rfl (range_of_in (both hw).1 rfl)).trans ?_
      simp only [incDecPost, stepOf, if_true, hof]
      rfl
    · refine (run_incDec_advance ht hw rfl rfl (range_of_in (both hw).1 rfl)).trans ?_
      simp only [incDecPost, stepOf, reduceCtorEq, if_false]
      rfl
  · simp only [List.mem_cons, List.not_mem_nil, or_false] at hi
    rcases hi with rfl | rfl
    · refine (runRm_incDec_advance ht hw rfl rfl (both hw).1 (both hw).2 (.inl rfl)).trans ?_
      simp only [incDecPost, stepOf, if_true]
    · refine (runRm_incDec_advance ht hw rfl rfl (both hw).1 (both hw).2 (.inr rfl)).trans ?_
      simp only [incDecPost, stepOf, reduceCtorEq, Bool.false_eq_true, if_false]

/-! ### NEG and NOT -/

section
variable {s : State} {w : Width} {v : Nat}

theorem narrow_neg (hv : v < 2 ^ w.bits) : narrow w (-(v : Int)) = (2 ^ w.bits - v) % 2 ^ w.bits := by
  cases w <;> simp only [narrow, Width.bits] at * <;> omega

/-- Only the most negative number has no negative (10_state.md R35). -/
theorem signedOverflow_neg (hv : v < 2 ^ w.bits) :
    signedOverflow w (signedOf w 0 - signedOf w v - false.toNat) = decide (v = 2 ^ (w.bits - 1)) := by
  have hzero : signedOf w 0 = 0 := by cases w <;> rfl
  have hs := signedOf_cases w v
  refine decide_eq_decide.mpr ?_
  rw [hzero, Bool.toNat_false]
  cases w <;> simp only [Width.bits, Nat.reduceSub] at * <;> omega

/-- Policy ARITH after the difference of 0 and `v`. -/
theorem Flags.arith_of_neg (hv : v < 2 ^ w.bits) {f : Flags} (hf : f.cf = decide (v ≠ 0)) :
    f.arith w ⟨v, 0, narrow w (-(v : Int))⟩ =
      { f with af := decide (v % 16 ≠ 0), of := decide (v = 2 ^ (w.bits - 1)) } := by
  have hcf : f.cf = decide (0 < v + false.toNat) := hf.trans (decide_eq_decide.mpr Nat.pos_iff_ne_zero.symm)
  have haf : decide (0 % 16 < v % 16 + false.toNat) = decide (v % 16 ≠ 0) :=
    decide_eq_decide.mpr Nat.pos_iff_ne_zero
  have h := Flags.arith_of_sub (by positivity) hv false hcf
  rw [haf, signedOverflow_neg hv] at h
  rw [← h]
  simp

/-- NEG sets CF, then ARITH and SZP of the difference from 0 (41_arithmetic.md R178). -/
theorem Flags.policy_of_neg (hv : v < 2 ^ w.bits) (f : Flags) :
    ({ f with cf := decide (v ≠ 0) } : Flags).policy tRef w 3 ⟨v, 0, narrow w (-(v : Int))⟩ =
      Spec.szp w (narrow w (-(v : Int)))
        { f with cf := decide (v ≠ 0), af := decide (v % 16 ≠ 0), of := decide (v = 2 ^ (w.bits - 1)) } := by
  have hswap (g : Flags) (t : Triple) : g.policy tRef w 3 t = (g.arith w t).szp tRef w t.result := rfl
  rw [hswap, Flags.arith_of_neg hv rfl, Flags.szp_tRef (narrow_lt w _)]

theorem State.negate_eq (ht : s.tables = tRef) (o : Operand) :
    s.negate w o =
      { s.writeOp w o ((2 ^ w.bits - s.readOp w o) % 2 ^ w.bits) with
        flags := Spec.szp w ((2 ^ w.bits - s.readOp w o) % 2 ^ w.bits)
          { s.flags with
            cf := decide (s.readOp w o ≠ 0)
            af := decide (s.readOp w o % 16 ≠ 0)
            of := decide (s.readOp w o = 2 ^ (w.bits - 1)) } } := by
  have hv := s.readOp_lt w o
  have hp : s.stdPolicy 0x28 = 3 := stdPolicy_tRef ht rfl
  unfold State.negate
  simp only [hp, ht]
  rw [Flags.policy_of_neg hv, narrow_neg hv]

end

/-- Settles O22: NEG by the difference from 0, NOT by its handler. -/
theorem negationResults : Obligations.NegationResults := by
  intro s b m ht w v r
  refine ⟨fun hw => ?_, fun hw => ?_⟩
  · refine runRm_advance ht hw rfl rfl rfl ?_ (State.writeOp_ip ..)
    rw [Head.width_eq_bit0 (both hw).1 (by decide), State.negate_eq ht]
  · refine runRmTable_advance ht hw rfl (range_of_in (both hw).1 rfl) rfl rfl ?_ (State.writeOp_ip ..)
    rw [Head.width_eq_bit0 (both hw).1 (by decide)]

end Sys2Proof.Machine
end

section
/-! MUL, IMUL, DIV and IDIV, and where a division faults (41_arithmetic.md R179 to R182, R187; 60_exceptions.md R356): O23
to O26. -/

namespace Sys2Proof.Machine

open Sys2Proof.Laws Sys2Proof.Spec

/-! ### Signed readings (00_scope.md R9) -/

/-- The signed reading of a bit vector by its top bit. -/
theorem toInt_eq_ite {k : Nat} (hk : 0 < k) (x : BitVec k) :
    x.toInt = if x.toNat < 2 ^ (k - 1) then (x.toNat : Int) else (x.toNat : Int) - (2 ^ k : Nat) := by
  have hpow := Nat.two_pow_pred_add_two_pow_pred hk
  rw [BitVec.toInt_eq_toNat_cond]
  by_cases h : x.toNat < 2 ^ (k - 1)
  · rw [if_pos h, if_pos (by omega)]
  · rw [if_neg h, if_neg (by omega)]

theorem signedOf_toNat (w : Width) (x : BitVec w.bits) : signedOf w x.toNat = x.toInt :=
  (toInt_eq_ite (by cases w <;> decide) x).symm

/-- The signed reading of a number is that of the bit vector of its width. -/
theorem signedOf_eq_toInt {w : Width} {v : Nat} (hv : v < 2 ^ w.bits) :
    signedOf w v = (BitVec.ofNat w.bits v).toInt := by
  rw [← signedOf_toNat, BitVec.toNat_ofNat, Nat.mod_eq_of_lt hv]

theorem natAbs_signedOf_le {w : Width} {v : Nat} (hv : v < 2 ^ w.bits) : (signedOf w v).natAbs ≤ 2 ^ (w.bits - 1) := by
  have hbits := two_pow_bits w
  have hs := signedOf_cases w v
  cases w <;> simp only [Width.bits, Nat.reduceSub] at * <;> omega

/-- The low bits of an integer, read as a signed number. -/
theorem signedOf_narrow (w : Width) (p : Int) : signedOf w (narrow w p) = (BitVec.ofInt w.bits p).toInt :=
  signedOf_toNat w (BitVec.ofInt w.bits p)

/-- The upper part of a bit vector counts `2^n` times. -/
theorem toNat_append_eq_add {k n : Nat} (x : BitVec k) (y : BitVec n) : (x ++ y).toNat = x.toNat * 2 ^ n + y.toNat := by
  rw [BitVec.toNat_append, ← Nat.shiftLeft_add_eq_or_of_lt y.isLt, Nat.shiftLeft_eq]

theorem ofInt_toInt_eq_setWidth {n k : Nat} (h : n ≤ k) (x : BitVec k) : BitVec.ofInt n x.toInt = x.setWidth n := by
  apply BitVec.eq_of_toInt_eq
  rw [BitVec.toInt_ofInt, BitVec.toInt_setWidth, BitVec.toInt_eq_toNat_bmod, Int.bmod_bmod_of_dvd]
  exact Nat.pow_dvd_pow 2 h

/-! ### MUL and IMUL -/

theorem State.mulFlags_afterMul (s : State) (ovf : Bool) : afterMul s.flags (s.mulFlags ovf) ovf :=
  ⟨rfl, rfl, rfl, rfl, rfl⟩

/-- The flags of MUL say that the high half of the product is not 0 (41_arithmetic.md R179). -/
theorem State.multiply_eq (s : State) {w : Width} {v : Nat} (hv : v < 2 ^ w.bits) :
    ∃ x : BitVec (2 * w.bits), x.toNat = s.reg w 0 * v ∧
      s.multiply w v = { s.setProduct w x.toNat with flags := s.mulFlags (decide (x.toNat / 2 ^ w.bits ≠ 0)) } := by
  have hlt : s.reg w 0 * v < 2 ^ (2 * w.bits) := by
    rw [Nat.two_mul, Nat.pow_add]
    exact Nat.mul_lt_mul'' (s.reg_lt w 0) hv
  have hx : (BitVec.ofNat (2 * w.bits) (s.reg w 0 * v)).toNat = s.reg w 0 * v := by
    rw [BitVec.toNat_ofNat, Nat.mod_eq_of_lt hlt]
  exact ⟨_, hx, by rw [hx]; rfl⟩

/-- The product of two signed operands fits twice their width. -/
theorem toInt_product {w : Width} {x y : Nat} (hx : x < 2 ^ w.bits) (hy : y < 2 ^ w.bits) :
    (BitVec.ofInt (2 * w.bits) (signedOf w x * signedOf w y)).toInt = signedOf w x * signedOf w y := by
  have hle := Nat.mul_le_mul (natAbs_signedOf_le hx) (natAbs_signedOf_le hy)
  rw [← Int.natAbs_mul] at hle
  generalize signedOf w x * signedOf w y = p at hle ⊢
  cases w <;> refine BitVec.toInt_ofInt_eq_self (by decide) ?_ ?_ <;>
    simp only [Width.bits, Nat.reduceMul, Nat.reduceSub, Nat.reducePow] at hle ⊢ <;> omega

/-- The flags of IMUL say that the product is not the sign extension of its low half (41_arithmetic.md R180). -/
theorem State.multiplySigned_eq (s : State) {w : Width} {v : Nat} (hv : v < 2 ^ w.bits) :
    ∃ x : BitVec (2 * w.bits), x.toInt = signedOf w (s.reg w 0) * signedOf w v ∧
      s.multiplySigned w v = { s.setProduct w x.toNat with
        flags := s.mulFlags (decide (x ≠ (x.setWidth w.bits).signExtend (2 * w.bits))) } := by
  have hx := toInt_product (s.reg_lt w 0) hv
  generalize hp : BitVec.ofInt (2 * w.bits) (signedOf w (s.reg w 0) * signedOf w v) = x at hx
  have hovf : decide (x ≠ (x.setWidth w.bits).signExtend (2 * w.bits)) =
      decide (x.toInt ≠ signedOf w (narrow w x.toInt)) := by
    rw [decide_eq_decide, ne_eq, ← BitVec.toInt_inj, BitVec.toInt_signExtend_of_le (by omega), signedOf_narrow,
      ofInt_toInt_eq_setWidth (by omega)]
  refine ⟨x, hx, ?_⟩
  rw [hovf, hx, ← hp]
  rfl

theorem State.setProduct_byte (s : State) (x : BitVec 16) : s.setProduct .byte x.toNat = { s with ax := x } := by
  rw [State.setProduct, BitVec.ofNat_toNat, BitVec.setWidth_eq]

/-- The upper half of a double word. -/
def upperHalf (x : BitVec 32) : Word := BitVec.ofNat 16 (x.toNat / 2 ^ 16)

theorem State.setProduct_word (s : State) (x : BitVec 32) :
    s.setProduct .word x.toNat = { s with ax := x.setWidth 16, dx := upperHalf x } := by
  rw [State.setProduct, BitVec.ofNat_toNat, upperHalf]

theorem upperHalf_toNat (x : BitVec 32) : (upperHalf x).toNat = x.toNat / 2 ^ 16 := by
  rw [upperHalf, BitVec.toNat_ofNat]
  omega

/-- The two halves that the handler stores make the product (41_arithmetic.md R179, R180). -/
theorem upperHalf_add (x : BitVec 32) : (upperHalf x).toNat * 65536 + (x.setWidth 16 : Word).toNat = x.toNat := by
  rw [upperHalf_toNat, BitVec.toNat_setWidth]
  omega

theorem upperHalf_append (x : BitVec 32) : (upperHalf x ++ x.setWidth 16 : BitVec 32) = x :=
  BitVec.eq_of_toNat_eq ((toNat_append_eq_add _ _).trans (upperHalf_add x))

theorem State.multiply_byte (s : State) {v : Nat} (hv : v < 2 ^ 8) :
    ∃ x : Word, x.toNat = s.al.toNat * v ∧
      s.multiply .byte v = { s with ax := x, flags := s.mulFlags (decide (256 ≤ x.toNat)) } := by
  obtain ⟨x, hx, hs⟩ : ∃ x : Word, x.toNat = s.reg .byte 0 * v ∧
      s.multiply .byte v = { s.setProduct .byte x.toNat with flags := s.mulFlags (decide (x.toNat / 2 ^ 8 ≠ 0)) } :=
    s.multiply_eq (w := .byte) hv
  have hovf : decide (x.toNat / 2 ^ 8 ≠ 0) = decide (256 ≤ x.toNat) := decide_eq_decide.mpr (by omega)
  exact ⟨x, hx, by rw [hs, State.setProduct_byte, hovf]⟩

theorem State.multiply_word (s : State) {v : Nat} (hv : v < 2 ^ 16) :
    ∃ x : BitVec 32, x.toNat = s.ax.toNat * v ∧
      s.multiply .word v =
        { s with ax := x.setWidth 16, dx := upperHalf x, flags := s.mulFlags (decide (upperHalf x ≠ 0)) } := by
  obtain ⟨x, hx, hs⟩ : ∃ x : BitVec 32, x.toNat = s.reg .word 0 * v ∧
      s.multiply .word v = { s.setProduct .word x.toNat with flags := s.mulFlags (decide (x.toNat / 2 ^ 16 ≠ 0)) } :=
    s.multiply_eq (w := .word) hv
  have hovf : decide (x.toNat / 2 ^ 16 ≠ 0) = decide (upperHalf x ≠ 0) :=
    decide_eq_decide.mpr (by rw [ne_eq, ne_eq, ← BitVec.toNat_inj, upperHalf_toNat]; rfl)
  exact ⟨x, hx, by rw [hs, State.setProduct_word, hovf]⟩

theorem State.multiplySigned_byte (s : State) {v : Nat} (hv : v < 2 ^ 8) :
    ∃ x : Word, x.toInt = s.al.toInt * (BitVec.ofNat 8 v).toInt ∧
      s.multiplySigned .byte v =
        { s with ax := x, flags := s.mulFlags (decide (x ≠ (x.setWidth 8).signExtend 16)) } := by
  obtain ⟨x, hx, hs⟩ : ∃ x : Word, x.toInt = signedOf .byte (s.reg .byte 0) * signedOf .byte v ∧
      s.multiplySigned .byte v = { s.setProduct .byte x.toNat with
        flags := s.mulFlags (decide (x ≠ (x.setWidth 8).signExtend 16)) } :=
    s.multiplySigned_eq (w := .byte) hv
  have hal : signedOf .byte (s.reg .byte 0) = s.al.toInt := signedOf_toNat .byte s.al
  have hop : signedOf .byte v = (BitVec.ofNat 8 v).toInt := signedOf_eq_toInt (w := .byte) hv
  rw [hal, hop] at hx
  exact ⟨x, hx, by rw [hs, State.setProduct_byte]⟩

theorem State.multiplySigned_word (s : State) {v : Nat} (hv : v < 2 ^ 16) :
    ∃ x : BitVec 32, x.toInt = s.ax.toInt * (BitVec.ofNat 16 v).toInt ∧
      s.multiplySigned .word v =
        { s with
          ax := x.setWidth 16, dx := upperHalf x
          flags := s.mulFlags (decide (x ≠ (x.setWidth 16).signExtend 32)) } := by
  obtain ⟨x, hx, hs⟩ : ∃ x : BitVec 32, x.toInt = signedOf .word (s.reg .word 0) * signedOf .word v ∧
      s.multiplySigned .word v = { s.setProduct .word x.toNat with
        flags := s.mulFlags (decide (x ≠ (x.setWidth 16).signExtend 32)) } :=
    s.multiplySigned_eq (w := .word) hv
  have hax : signedOf .word (s.reg .word 0) = s.ax.toInt := signedOf_toNat .word s.ax
  have hop : signedOf .word v = (BitVec.ofNat 16 v).toInt := signedOf_eq_toInt (w := .word) hv
  rw [hax, hop] at hx
  exact ⟨x, hx, by rw [hs, State.setProduct_word]⟩

/-- F6 is the byte form of its group and F7 the word form. -/
theorem width_f6 (m : Option ModRM) : Head.width ⟨0xF6, m⟩ = .byte := by
  simp [Head.width, opWidth, Width.ofBit]

theorem width_f7 (m : Option ModRM) : Head.width ⟨0xF7, m⟩ = .word := by
  simp [Head.width, opWidth, Width.ofBit]

/-- Settles O23: the product is a bit vector of twice the width, whose halves the handler stores. -/
theorem multiplyResults : Obligations.MultiplyResults := by
  intro s b m ht o
  refine ⟨?_, ?_, ?_, ?_⟩
  · rintro hw rfl
    obtain ⟨x, hx, hs⟩ := s.multiply_byte (s.readOp_lt .byte o)
    refine ⟨x, _, hx, s.mulFlags_afterMul _, runRmTable_advance ht hw rfl rfl rfl rfl ?_ rfl⟩
    rw [width_f6, hs]
  · rintro hw rfl
    obtain ⟨x, hx, hs⟩ := s.multiply_word (s.readOp_lt .word o)
    refine ⟨upperHalf x, x.setWidth 16, _, ?_, s.mulFlags_afterMul _,
      runRmTable_advance ht hw rfl rfl rfl rfl ?_ rfl⟩
    · rw [upperHalf_add, hx]
    · rw [width_f7, hs]
  · rintro hw rfl
    obtain ⟨x, hx, hs⟩ := s.multiplySigned_byte (s.readOp_lt .byte o)
    refine ⟨x, _, hx, s.mulFlags_afterMul _, runRmTable_advance ht hw rfl rfl rfl rfl ?_ rfl⟩
    rw [width_f6, hs]
  · rintro hw rfl
    obtain ⟨x, hx, hs⟩ := s.multiplySigned_word (s.readOp_lt .word o)
    refine ⟨upperHalf x, x.setWidth 16, _, ?_, s.mulFlags_afterMul _,
      runRmTable_advance ht hw rfl rfl rfl rfl ?_ rfl⟩
    · rw [upperHalf_append, hx]
    · rw [width_f7, hs, upperHalf_append]

/-! ### DIV and IDIV -/

section
variable {s : State} {w : Width} {v : Nat}

/-- DIV faults when the divisor is 0 or the quotient does not fit (41_arithmetic.md R181). -/
theorem State.divide_eq_fault (h : 2 ^ w.bits * v ≤ s.dividend w) : s.divide w v = divideFault := by
  unfold State.divide
  split
  · rfl
  · next hv => rw [if_pos ((Nat.le_div_iff_mul_le (Nat.pos_of_ne_zero hv)).mpr h)]

/-- DIV answers quotient and remainder when the quotient fits (41_arithmetic.md R181). -/
theorem State.divide_eq_done (h : s.dividend w < 2 ^ w.bits * v) :
    s.divide w v = .done (s.setQuotient w (s.dividend w / v) (s.dividend w % v)) := by
  have hv : v ≠ 0 := by rintro rfl; omega
  have hq : ¬ 2 ^ w.bits ≤ s.dividend w / v := by
    rw [Nat.le_div_iff_mul_le (Nat.pos_of_ne_zero hv)]
    omega
  rw [State.divide, if_neg hv, if_neg hq]

/-- IDIV faults when the divisor is 0 or the magnitude of the quotient is not below `2^(W-1)`
(41_arithmetic.md R182). -/
theorem State.divideSigned_eq_fault
    (h : 2 ^ (w.bits - 1) * (signedOf w v).natAbs ≤ (s.dividendSigned w).natAbs) :
    s.divideSigned w v = divideFault := by
  unfold State.divideSigned
  simp only
  split
  · rfl
  · next hd =>
    have hq : 2 ^ (w.bits - 1) ≤ ((s.dividendSigned w).tdiv (signedOf w v)).natAbs := by
      rw [Int.natAbs_tdiv]
      exact (Nat.le_div_iff_mul_le (Int.natAbs_pos.mpr hd)).mpr h
    rw [if_pos]
    cases w <;> simp only [Width.bits, Nat.reduceSub] at hq ⊢ <;> omega

/-- IDIV answers the quotient rounded toward zero and its remainder when the magnitude of the quotient is below
`2^(W-1)` (41_arithmetic.md R182). -/
theorem State.divideSigned_eq_done
    (h : (s.dividendSigned w).natAbs < 2 ^ (w.bits - 1) * (signedOf w v).natAbs) :
    s.divideSigned w v = .done (s.setQuotient w (narrow w ((s.dividendSigned w).tdiv (signedOf w v)))
      (narrow w ((s.dividendSigned w).tmod (signedOf w v)))) := by
  have hd : signedOf w v ≠ 0 := fun hc => by simp [hc] at h
  have hq : ((s.dividendSigned w).tdiv (signedOf w v)).natAbs < 2 ^ (w.bits - 1) := by
    rw [Int.natAbs_tdiv]
    exact (Nat.div_lt_iff_lt_mul (Int.natAbs_pos.mpr hd)).mpr h
  unfold State.divideSigned
  simp only
  rw [if_neg hd, if_neg, Int.tmod_def, Int.mul_comm]
  cases w <;> simp only [Width.bits, Nat.reduceSub] at hq ⊢ <;> omega

end

theorem Flags.controlKept_drawAll (s : State) (f : Flags) : controlKept f (f.drawAll s) := ⟨rfl, rfl, rfl⟩

/-- A quotient that fits `k` bits and its remainder, as bit vectors. -/
theorem ofNat_div_mod {k n v : Nat} (hv : v < 2 ^ k) (hfit : n < 2 ^ k * v) :
    (BitVec.ofNat k (n / v)).toNat * v + (BitVec.ofNat k (n % v)).toNat = n ∧ (BitVec.ofNat k (n % v)).toNat < v := by
  have hpos : 0 < v := Nat.pos_of_ne_zero fun hc => by simp [hc] at hfit
  have hr := Nat.mod_lt n hpos
  rw [BitVec.toNat_ofNat, BitVec.toNat_ofNat, Nat.mod_eq_of_lt ((Nat.div_lt_iff_lt_mul hpos).mpr hfit),
    Nat.mod_eq_of_lt (hr.trans hv)]
  exact ⟨Nat.div_add_mod' n v, hr⟩

/-- Settles O24: quotient and remainder fit the halves that the handler stores. -/
theorem divideResults : Obligations.DivideResults := by
  intro s b m ht hw o
  refine ⟨?_, ?_⟩
  · rintro rfl hfit
    obtain ⟨heq, hlt⟩ := ofNat_div_mod (s.readOp_lt .byte o) hfit
    refine ⟨_, _, _, heq, hlt, s.flags.controlKept_drawAll s, runRmTable_advance ht hw rfl rfl rfl rfl ?_ rfl⟩
    rw [width_f6, State.divide_eq_done hfit]
    rfl
  · rintro rfl hfit
    obtain ⟨heq, hlt⟩ := ofNat_div_mod (s.readOp_lt .word o) hfit
    refine ⟨_, _, _, heq, hlt, s.flags.controlKept_drawAll s, runRmTable_advance ht hw rfl rfl rfl rfl ?_ rfl⟩
    rw [width_f7, State.divide_eq_done hfit]
    rfl

/-- A remainder that is not 0 has the sign of the dividend (41_arithmetic.md R182). -/
theorem tmod_neg_iff {n d : Int} (h : n.tmod d ≠ 0) : n.tmod d < 0 ↔ n < 0 := by
  have hdvd : ¬ d ∣ n := fun hc => h (Int.tmod_eq_zero_of_dvd hc)
  have hsign : (n.tmod d).sign = n.sign := by rw [Int.sign_tmod, if_neg hdvd]
  rw [← Int.sign_eq_neg_one_iff_neg, hsign, Int.sign_eq_neg_one_iff_neg]

/-- A signed quotient whose magnitude is below `2^(k-1)` and its remainder, as bit vectors. -/
theorem ofInt_tdiv_tmod {k : Nat} (hk : 0 < k) {n d : Int} (hd : d.natAbs ≤ 2 ^ (k - 1))
    (hfit : n.natAbs < 2 ^ (k - 1) * d.natAbs) :
    (BitVec.ofInt k (n.tdiv d)).toInt * d + (BitVec.ofInt k (n.tmod d)).toInt = n ∧
      (BitVec.ofInt k (n.tmod d)).toInt.natAbs < d.natAbs ∧
      ((BitVec.ofInt k (n.tmod d)).toInt ≠ 0 → ((BitVec.ofInt k (n.tmod d)).toInt < 0 ↔ n < 0)) := by
  have hpos : 0 < d.natAbs := Nat.pos_of_ne_zero fun hc => by simp [hc] at hfit
  have hq : (n.tdiv d).natAbs < 2 ^ (k - 1) := by
    rw [Int.natAbs_tdiv]
    exact (Nat.div_lt_iff_lt_mul hpos).mpr hfit
  have hr : (n.tmod d).natAbs < d.natAbs := by
    rw [Int.natAbs_tmod]
    exact Nat.mod_lt _ hpos
  have hfits {z : Int} (hz : z.natAbs < 2 ^ (k - 1)) : (BitVec.ofInt k z).toInt = z := by
    have habs : |z| < 2 ^ (k - 1) := by rw [Int.abs_eq_natAbs]; exact_mod_cast hz
    exact BitVec.toInt_ofInt_eq_self hk (abs_lt.mp habs).1.le (abs_lt.mp habs).2
  rw [hfits hq, hfits (hr.trans_le hd)]
  exact ⟨Int.tdiv_mul_add_tmod n d, hr, tmod_neg_iff⟩

section
variable (s : State)

theorem State.dividendSigned_byte : s.dividendSigned .byte = s.ax.toInt := (toInt_eq_ite (by decide) s.ax).symm

theorem State.dividendSigned_word : s.dividendSigned .word = (s.dx ++ s.ax : BitVec 32).toInt := by
  have hn : s.dividend .word = (s.dx ++ s.ax : BitVec 32).toNat := (toNat_append_eq_add s.dx s.ax).symm
  rw [State.dividendSigned, hn, toInt_eq_ite (by decide)]
  rfl

theorem State.setQuotient_narrow_byte (q r : Int) : s.setQuotient .byte (narrow .byte q) (narrow .byte r) =
    { s with ax := BitVec.ofInt 8 r ++ BitVec.ofInt 8 q, flags := s.flags.drawAll s } := by
  have hn (z : Int) : BitVec.ofNat 8 (narrow .byte z) = BitVec.ofInt 8 z :=
    (BitVec.ofNat_toNat 8 (BitVec.ofInt 8 z)).trans (BitVec.setWidth_eq _)
  rw [State.setQuotient, hn, hn, mkWord]

theorem State.setQuotient_narrow_word (q r : Int) : s.setQuotient .word (narrow .word q) (narrow .word r) =
    { s with ax := BitVec.ofInt 16 q, dx := BitVec.ofInt 16 r, flags := s.flags.drawAll s } := by
  have hn (z : Int) : BitVec.ofNat 16 (narrow .word z) = BitVec.ofInt 16 z :=
    (BitVec.ofNat_toNat 16 (BitVec.ofInt 16 z)).trans (BitVec.setWidth_eq _)
  rw [State.setQuotient, hn, hn]

end

/-- Settles O25: quotient and remainder fit the halves that the handler stores. -/
theorem signedDivideResults : Obligations.SignedDivideResults := by
  intro s b m ht hw o
  refine ⟨?_, ?_⟩
  · rintro rfl d hfit
    have hd : signedOf .byte (s.readOp .byte o) = d := signedOf_eq_toInt (s.readOp_lt .byte o)
    have hle := hd ▸ natAbs_signedOf_le (s.readOp_lt .byte o)
    obtain ⟨heq, hlt, hsign⟩ := ofInt_tdiv_tmod (k := 8) (by decide) hle hfit
    refine ⟨_, _, _, heq, hlt, hsign, s.flags.controlKept_drawAll s, runRmTable_advance ht hw rfl rfl rfl rfl ?_ rfl⟩
    rw [← s.dividendSigned_byte, ← hd] at hfit ⊢
    rw [width_f6, State.divideSigned_eq_done hfit, State.setQuotient_narrow_byte]
  · rintro rfl d hfit
    have hd : signedOf .word (s.readOp .word o) = d := signedOf_eq_toInt (s.readOp_lt .word o)
    have hle := hd ▸ natAbs_signedOf_le (s.readOp_lt .word o)
    obtain ⟨heq, hlt, hsign⟩ := ofInt_tdiv_tmod (k := 16) (by decide) hle hfit
    refine ⟨_, _, _, heq, hlt, hsign, s.flags.controlKept_drawAll s, runRmTable_advance ht hw rfl rfl rfl rfl ?_ rfl⟩
    rw [← s.dividendSigned_word, ← hd] at hfit ⊢
    rw [width_f7, State.divideSigned_eq_done hfit, State.setQuotient_narrow_word]

/-! ### The faults of a division -/

theorem runRmTable_raise {i : Instr} {h : Head} {s : State} {m : ModRM} {f : Operand → BitVec 3 → Result}
    {k : FaultKind} {q : Option FaultReason} {v : Option Byte} (ht : s.tables = tRef) (hw : i.wellFormed = true)
    (hp : flagPolicy h.op.toNat = 0) (hh : i.head = h) (hm : h.modrm = some m)
    (hf : f (operand s m.ea) m.reg = .raise k q v) : runRmTable h s f = .next (faulted i s k q v) := by
  rw [runRmTable_tRef ht hp hm (ea_wellFormed hw hh hm), hf, finish_raise_faulted hh]

/-- The group F6 has two opcode bytes. -/
theorem op_f6_or_f7 {h : Head} (ho : h.opIn 0xF6 0xF7 = true) : h.op = 0xF6 ∨ h.op = 0xF7 := by
  simp only [Head.opIn, Bool.and_eq_true, decide_eq_true_eq] at ho
  exact (show h.op.toNat = 0xF6 ∨ h.op.toNat = 0xF7 by omega).imp eqOp eqOp

/-- Settles O26: the divisions by their range, AAM by its base. -/
theorem divisionFaults : Obligations.DivisionFaults := by
  intro s b m ht w v n z
  refine ⟨fun hw hn => ?_, fun hw hz => ?_, ?_⟩
  · rcases op_f6_or_f7 (both hw).1 with rfl | rfl
    · refine runRmTable_raise ht hw rfl rfl rfl ?_
      rw [width_f6]
      exact State.divide_eq_fault (w := .byte) hn
    · refine runRmTable_raise ht hw rfl rfl rfl ?_
      rw [width_f7]
      exact State.divide_eq_fault (w := .word) hn
  · rcases op_f6_or_f7 (both hw).1 with rfl | rfl
    · refine runRmTable_raise ht hw rfl rfl rfl ?_
      rw [width_f6]
      exact State.divideSigned_eq_fault (w := .byte) (s.dividendSigned_byte ▸ hz)
    · refine runRmTable_raise ht hw rfl rfl rfl ?_
      rw [width_f7]
      exact State.divideSigned_eq_fault (w := .word) (s.dividendSigned_word ▸ hz)
  · exact (run_noModRM rfl s _).trans (finish_raise_faulted (i := .aam ⟨0xD4, none⟩ 0) rfl _ _ _)

end Sys2Proof.Machine
end

section
/-! DAA, DAS, AAA, AAS, AAM and AAD (41_arithmetic.md R183 to R188): O27 to O29. -/

namespace Sys2Proof.Machine

open Sys2Proof.Laws Sys2Proof.Spec

/-! ### The flags -/

theorem szpOf_szp (w : Width) (v : Nat) (f : Flags) : szpOf w v (Spec.szp w v f) := ⟨rfl, rfl, rfl⟩

/-- The entry 1 of DAA, DAS, AAM and AAD under `T_REF`: SZP of the new AL (30_encoding.md R122). -/
theorem Flags.policyResult_szp {s : State} (ht : s.tables = tRef) (a : Byte) (f : Flags) :
    f.policyResult s .byte 1 a.toNat = Spec.szp .byte a.toNat f := by
  have hp : f.policyResult s .byte 1 a.toNat = f.szp s.tables .byte a.toNat := rfl
  rw [hp, ht, Flags.szp_tRef (w := .byte) a.isLt]

section
variable (s : State)

theorem State.lowDigit_eq : s.lowDigit = decide (9 < s.al.toNat % 16 ∨ s.flags.af = true) := by
  rw [State.lowDigit, Bool.decide_or, Bool.decide_eq_true]

theorem State.highDigit_eq : s.highDigit = decide (0x99 < s.al.toNat ∨ s.flags.cf = true) := by
  rw [State.highDigit, Bool.decide_or, Bool.decide_eq_true]

end

/-! ### DAA and DAS -/

/-- AL after DAA: the low digit adjusted, then the high one (41_arithmetic.md R183). -/
def State.daaAl (s : State) : Byte :=
  if s.highDigit then (if s.lowDigit then s.al + 6 else s.al) + 0x60 else if s.lowDigit then s.al + 6 else s.al

/-- AL after DAS (41_arithmetic.md R184). -/
def State.dasAl (s : State) : Byte :=
  if s.highDigit then (if s.lowDigit then s.al - 6 else s.al) - 0x60 else if s.lowDigit then s.al - 6 else s.al

section
variable (s : State)

/-- The digits adjusted one after another are adjusted at once modulo 256. -/
theorem State.daaAl_toNat : s.daaAl.toNat =
    (s.al.toNat + (if 9 < s.al.toNat % 16 ∨ s.flags.af = true then 6 else 0) +
      (if 0x99 < s.al.toNat ∨ s.flags.cf = true then 0x60 else 0)) % 256 := by
  simp only [State.daaAl, s.lowDigit_eq, s.highDigit_eq, decide_eq_true_eq]
  split <;> split <;> bv_omega

theorem State.dasAl_toNat : (s.dasAl.toNat : Int) =
    ((s.al.toNat : Int) - (if 9 < s.al.toNat % 16 ∨ s.flags.af = true then 6 else 0) -
      (if 0x99 < s.al.toNat ∨ s.flags.cf = true then 0x60 else 0)) % 256 := by
  simp only [State.dasAl, s.lowDigit_eq, s.highDigit_eq, decide_eq_true_eq]
  split <;> split <;> bv_omega

/-- The flags of DAA (41_arithmetic.md R183). -/
def State.daaFlags : Flags :=
  Spec.szp .byte s.daaAl.toNat (({ s.flags with af := s.lowDigit, cf := s.highDigit } : Flags).drawOf s)

/-- The flags of DAS (41_arithmetic.md R184). -/
def State.dasFlags : Flags :=
  Spec.szp .byte s.dasAl.toNat
    (({ s.flags with af := s.lowDigit, cf := s.highDigit || s.lowDigit && decide (s.al.toNat < 6) } : Flags).drawOf s)

theorem State.decimalAdd_eq (ht : s.tables = tRef) :
    s.decimalAdd 1 = { s with ax := s.ah ++ s.daaAl, flags := s.daaFlags } := by
  rw [State.daaFlags, ← Flags.policyResult_szp ht]
  rfl

/-- The borrow of the low digit out of AL, when CF did not say the same already (41_arithmetic.md R184). -/
theorem State.dasCarry_eq :
    (s.highDigit || s.lowDigit && (s.flags.cf || decide (s.al.toNat < 6))) =
      (s.highDigit || s.lowDigit && decide (s.al.toNat < 6)) := by
  unfold State.highDigit
  cases s.flags.cf <;> simp

theorem State.decimalSub_eq (ht : s.tables = tRef) :
    s.decimalSub 1 = { s with ax := s.ah ++ s.dasAl, flags := s.dasFlags } := by
  rw [State.dasFlags, ← Flags.policyResult_szp ht, ← s.dasCarry_eq]
  rfl

theorem exec_daa_advance (ht : s.tables = tRef) : exec (.daa ⟨0x27, none⟩) s =
    .next (advance (.daa ⟨0x27, none⟩) { s with ax := s.ah ++ s.daaAl, flags := s.daaFlags }) := by
  have hp : s.stdPolicy 0x27 = 1 := stdPolicy_tRef ht rfl
  exact run_advance (i := .daa ⟨0x27, none⟩) ht rfl rfl rfl rfl (hp ▸ s.decimalAdd_eq ht) rfl

theorem exec_das_advance (ht : s.tables = tRef) : exec (.das ⟨0x2F, none⟩) s =
    .next (advance (.das ⟨0x2F, none⟩) { s with ax := s.ah ++ s.dasAl, flags := s.dasFlags }) := by
  have hp : s.stdPolicy 0x2F = 1 := stdPolicy_tRef ht rfl
  exact run_advance (i := .das ⟨0x2F, none⟩) ht rfl rfl rfl rfl (hp ▸ s.decimalSub_eq ht) rfl

end

/-- Settles O27: AL digit by digit, the flags by the handler and SZP. -/
theorem decimalAdjustResults : Obligations.DecimalAdjustResults := by
  intro s ht low high
  have hcf : s.dasFlags.cf = decide (high ∨ low ∧ s.al.toNat < 6) := by
    rw [Bool.decide_or, Bool.decide_and, ← s.lowDigit_eq, ← s.highDigit_eq]
    rfl
  exact ⟨⟨s.daaAl, s.daaFlags, s.daaAl_toNat, s.lowDigit_eq, s.highDigit_eq, szpOf_szp .byte _ _, ⟨rfl, rfl, rfl⟩,
      exec_daa_advance s ht⟩,
    ⟨s.dasAl, s.dasFlags, s.dasAl_toNat, s.lowDigit_eq, hcf, szpOf_szp .byte _ _, ⟨rfl, rfl, rfl⟩,
      exec_das_advance s ht⟩⟩

/-! ### ADD and DAA of packed decimal bytes -/

/-- The digits of a sum of packed decimal bytes, adjusted: `e` and `d` are the sums of the high and of the low
digits. -/
theorem digits_adjusted {d e : Nat} (hd : d ≤ 18) (he : e ≤ 18) {a : Nat} {low high : Prop} [Decidable low]
    [Decidable high]
    (hlow : low ↔ 9 < (16 * e + d) % 256 % 16 ∨ 16 ≤ d) (hhigh : high ↔ 0x99 < (16 * e + d) % 256 ∨ 256 ≤ 16 * e + d)
    (ha : a = ((16 * e + d) % 256 + (if low then 6 else 0) + (if high then 0x60 else 0)) % 256) :
    (a / 16 ≤ 9 ∧ a % 16 ≤ 9) ∧ 10 * (a / 16) + a % 16 + (if high then 100 else 0) = 10 * e + d := by
  by_cases hl : low <;> by_cases hh : high <;>
    simp only [hl, hh, if_true, if_false, true_iff, false_iff] at hlow hhigh ha ⊢ <;> omega

/-- ADD of an immediate byte to AL leaves in AL the sum, and in AF and CF its carries (41_arithmetic.md R171). -/
theorem exec_addAl {s t : State} {imm : Byte} (ht : s.tables = tRef)
    (he : exec (.addAccImm ⟨0x04, none⟩ (imm.setWidth 16)) s = .next t) :
    t.tables = tRef ∧ t.al.toNat = (s.al.toNat + imm.toNat) % 256 ∧
      t.flags.af = decide (16 ≤ s.al.toNat % 16 + imm.toNat % 16) ∧
      t.flags.cf = decide (256 ≤ s.al.toNat + imm.toNat) := by
  have himm : (imm.setWidth 16).toNat = imm.toNat := BitVec.toNat_setWidth_of_le (by decide)
  have hw : (aluAccImm .add ⟨0x04, none⟩ (imm.setWidth 16)).wellFormed = true := by
    have hfits : immFits .byte (imm.setWidth 16) = true := decide_eq_true (himm ▸ imm.isLt)
    exact hfits
  obtain ⟨-, hadd, -⟩ := arithmeticResults .add s (by decide) ht
  obtain rfl := Host.Outcome.next.inj ((hadd 0x04 _ hw).symm.trans he)
  refine ⟨ht, ?_, decide_eq_decide.mpr ?_, decide_eq_decide.mpr ?_⟩
  · have hal := State.reg8_setReg8_self s 0
      (BitVec.ofNat 8 (((s.al.toNat : Int) + (imm.setWidth 16).toNat) % 2 ^ 8).toNat)
    refine (congrArg BitVec.toNat hal).trans ?_
    rw [himm, BitVec.toNat_ofNat]
    omega
  · change (((s.al.toNat % 16 : Nat) : Int) + ((imm.setWidth 16).toNat % 16 : Nat) < 0 ∨
      16 ≤ ((s.al.toNat % 16 : Nat) : Int) + ((imm.setWidth 16).toNat % 16 : Nat)) ↔ _
    rw [himm]
    omega
  · change ((s.al.toNat : Int) + (imm.setWidth 16).toNat < 0 ∨
      2 ^ 8 ≤ (s.al.toNat : Int) + (imm.setWidth 16).toNat) ↔ _
    rw [himm]
    omega

/-- Settles O28: ADD leaves the sum and its carries, DAA adjusts the two digits. -/
theorem daaMakesADecimalSum : Obligations.DaaMakesADecimalSum := by
  intro s t u imm ht hs himm hadd hdaa
  obtain ⟨htt, hal, haf, hcf⟩ := exec_addAl ht hadd
  have hu := Host.Outcome.next.inj ((exec_daa_advance t htt).symm.trans hdaa)
  have halu : u.al = t.daaAl := hu ▸ loByte_mkWord t.daaAl t.ah
  have hcfu : u.flags.cf = t.highDigit := hu ▸ rfl
  obtain ⟨hs1, hs0⟩ := hs
  obtain ⟨hi1, hi0⟩ := himm
  have hsum : s.al.toNat + imm.toNat =
      16 * (s.al.toNat / 16 + imm.toNat / 16) + (s.al.toNat % 16 + imm.toNat % 16) := by omega
  have ha := t.daaAl_toNat
  rw [t.highDigit_eq] at hcfu
  simp only [hal, haf, hcf, hsum, decide_eq_true_eq] at ha hcfu
  obtain ⟨hpacked, hvalue⟩ := digits_adjusted (by omega) (by omega) Iff.rfl Iff.rfl ha
  simp only [isPacked, packed, halu, hcfu, decide_eq_true_eq]
  exact ⟨hpacked, by omega⟩

/-! ### AAA and AAS -/

/-- The flags of AAA and AAS (41_arithmetic.md R185, R186). -/
def State.asciiFlags (s : State) : Flags :=
  ({ s.flags with af := s.lowDigit, cf := s.lowDigit } : Flags).drawAscii s

/-- AL and AH are adjusted as two separate bytes (41_arithmetic.md R185, R186). -/
theorem State.asciiAdjust_eq (s : State) (al ah : Byte) : s.asciiAdjust al ah =
    { s with
      ax := if 9 < s.al.toNat % 16 ∨ s.flags.af = true then (s.ah + ah) ++ ((s.al + al) &&& 0x0F)
        else s.ah ++ (s.al &&& 0x0F)
      flags := s.asciiFlags } := by
  unfold State.asciiAdjust State.asciiFlags
  simp only [s.lowDigit_eq, decide_eq_true_eq]
  split
  · have hal : ((s.setAl (s.al + al)).setAh (s.ah + ah)).al = s.al + al := by
      simp only [State.setAh, State.setAl, State.al, loByte_mkWord]
    have hah : hiByte ((s.setAl (s.al + al)).setAh (s.ah + ah)).ax = s.ah + ah := hiByte_mkWord _ _
    rw [State.setAl, hal, hah]
    rfl
  · rfl

/-! ### AAM and AAD -/

theorem State.setBcd_eq {s : State} (ht : s.tables = tRef) (al ah : Byte) : s.setBcd 1 al ah =
    { s with ax := ah ++ al, flags := Spec.szp .byte al.toNat (s.flags.drawBase s) } := by
  rw [← Flags.policyResult_szp ht]
  rfl

theorem exec_aam_advance {s : State} (ht : s.tables = tRef) {base : Byte} (hb : base ≠ 0) :
    exec (.aam ⟨0xD4, none⟩ base) s = .next (advance (.aam ⟨0xD4, none⟩ base)
      (s.setBcd 1 (BitVec.ofNat 8 (s.al.toNat % base.toNat)) (BitVec.ofNat 8 (s.al.toNat / base.toNat)))) := by
  have hp : s.stdPolicy 0xD4 = 1 := stdPolicy_tRef ht rfl
  change execAam ⟨0xD4, none⟩ base s = _
  rw [execAam, if_neg hb, hp]
  exact run_advance ht rfl rfl rfl rfl rfl rfl

theorem exec_aad_advance {s : State} (ht : s.tables = tRef) (base : Byte) :
    exec (.aad ⟨0xD5, none⟩ base) s =
      .next (advance (.aad ⟨0xD5, none⟩ base) (s.setBcd 1 (s.al + s.ah * base) 0)) := by
  have hp : s.stdPolicy 0xD5 = 1 := stdPolicy_tRef ht rfl
  exact run_advance (i := .aad ⟨0xD5, none⟩ base) ht rfl rfl rfl rfl (by rw [← hp]) rfl

/-- Settles O29: the two digits as separate bytes, the division of AL by the base, and the polynomial of AL and AH. -/
theorem asciiAdjustResults : Obligations.AsciiAdjustResults := by
  intro s ht adjust
  refine ⟨⟨s.asciiFlags, s.lowDigit_eq, s.lowDigit_eq, ⟨rfl, rfl, rfl⟩, ?_⟩,
    ⟨s.asciiFlags, s.lowDigit_eq, s.lowDigit_eq, ⟨rfl, rfl, rfl⟩, ?_⟩, fun base hb => ?_, fun base => ?_⟩
  · exact runTable_advance (i := .aaa ⟨0x37, none⟩) ht rfl rfl rfl rfl rfl (s.asciiAdjust_eq 6 1) rfl
  · have hsub := s.asciiAdjust_eq (-6) (-1)
    rw [← BitVec.sub_eq_add_neg, ← BitVec.sub_eq_add_neg] at hsub
    exact runTable_advance (i := .aas ⟨0x3F, none⟩) ht rfl rfl rfl rfl rfl hsub rfl
  · have hpos : 0 < base.toNat := Nat.pos_of_ne_zero fun hc => hb (BitVec.eq_of_toNat_eq hc)
    have hfit : s.al.toNat < 2 ^ 8 * base.toNat := s.al.isLt.trans_le (Nat.le_mul_of_pos_right _ hpos)
    obtain ⟨heq, hlt⟩ := ofNat_div_mod base.isLt hfit
    refine ⟨_, _, _, heq, hlt, szpOf_szp .byte _ (s.flags.drawBase s), ⟨rfl, rfl, rfl⟩, ?_⟩
    rw [exec_aam_advance ht hb, State.setBcd_eq ht]
  · have hsum : (s.al + s.ah * base).toNat = (s.al.toNat + s.ah.toNat * base.toNat) % 256 := by
      rw [BitVec.toNat_add, BitVec.toNat_mul, Nat.add_mod_mod]
    have hclear (r : Byte) : (0 : Byte) ++ r = r.setWidth 16 :=
      BitVec.eq_of_toNat_eq (by rw [toNat_append_eq_add, BitVec.toNat_setWidth_of_le (by decide)]; simp)
    refine ⟨_, _, hsum, szpOf_szp .byte _ (s.flags.drawBase s), ⟨rfl, rfl, rfl⟩, ?_⟩
    rw [exec_aad_advance ht base, State.setBcd_eq ht, hclear]

end Sys2Proof.Machine
end

section
/-! AND, OR, XOR and TEST (42_logical.md R200 to R203, R205): O30. -/

namespace Sys2Proof.Machine

open Sys2Proof.Laws Sys2Proof.Spec

/-- The operations of 42_logical.md R201 to R203. -/
def bitwiseOps : List AluOp := [.and, .or, .xor]

section
variable {op : AluOp} {s : State} {w : Width} {a b : Nat}

/-- A bitwise operation of two values that fit gives one that fits. -/
theorem bitwise_lt (hop : op ∈ bitwiseOps) (ha : a < 2 ^ w.bits) (hb : b < 2 ^ w.bits) :
    bitwise op a b < 2 ^ w.bits := by
  simp only [bitwiseOps, List.mem_cons, List.not_mem_nil, or_false] at hop
  rcases hop with rfl | rfl | rfl
  · exact Nat.and_lt_two_pow a hb
  · exact Nat.or_lt_two_pow ha hb
  · exact Nat.xor_lt_two_pow ha hb

/-- Policies SZP and LOGIC under `T_REF` (42_logical.md R200; 30_encoding.md R115). -/
theorem Flags.policy_szpLogic_tRef {t : Triple} (ht : t.result < 2 ^ w.bits) (f : Flags) :
    f.policy tRef w policySzpLogic t = logicFlags w t.result f := by
  have hpolicy : f.policy tRef w policySzpLogic t = (f.szp tRef w t.result).logic := rfl
  rw [hpolicy, Flags.szp_tRef ht]
  rfl

/-- The template with a bitwise operation has the policies SZP and LOGIC, and no other carry than the one it got. -/
theorem State.alu_bitwise (hop : op ∈ bitwiseOps) (o : Operand) (v : Nat) :
    s.alu op w op.policy o v =
      { s.writeOp w o (bitwise op (s.readOp w o) v) with
        flags := s.flags.policy s.tables w policySzpLogic ⟨v, s.readOp w o, bitwise op (s.readOp w o) v⟩ } := by
  simp only [bitwiseOps, List.mem_cons, List.not_mem_nil, or_false] at hop
  rcases hop with rfl | rfl | rfl <;> rfl

theorem State.alu_eq_bitwisePost (ht : s.tables = tRef) (hop : op ∈ bitwiseOps) {o : Operand} {v : Nat}
    (hv : v < 2 ^ w.bits) : s.alu op w op.policy o v = bitwisePost s op w o v := by
  rw [State.alu_bitwise hop, ht, Flags.policy_szpLogic_tRef (bitwise_lt hop (s.readOp_lt w o) hv)]
  rfl

/-- TEST leaves the flags of the conjunction and nothing else (42_logical.md R205). -/
theorem State.test_eq_logicFlags (ht : s.tables = tRef) (ha : a < 2 ^ w.bits) :
    s.test w policySzpLogic a b = { s with flags := logicFlags w (a &&& b) s.flags } := by
  have hlt : a &&& b < 2 ^ w.bits := Nat.and_le_left.trans_lt ha
  rw [State.test, ht, Flags.policy_szpLogic_tRef hlt]

end

section
variable {op : AluOp} {b : Byte} {m : ModRM} {imm : Word}

/-- The immediate of a well-formed accumulator form fits the operand (30_encoding.md R110). -/
theorem accImm_lt (hw : (aluAccImm op ⟨b, none⟩ imm).wellFormed = true) :
    imm.toNat < 2 ^ (Width.ofBit (b.getLsbD 0)).bits := by
  obtain ⟨⟨ho, -⟩, hf⟩ := (both (wellFormed_aluAccImm ▸ hw)).imp_left both
  have hi := op.index_le
  rw [← Head.width_eq_bit0 ho (by omega)]
  exact of_decide_eq_true hf

/-- The immediate of the group 80 to 83 fits the operand (30_encoding.md R110). -/
theorem groupImm_lt (hw : (aluRmImm op ⟨b, some m⟩ imm).wellFormed = true) :
    groupImm b imm < 2 ^ (Width.ofBit (b.getLsbD 0)).bits := by
  obtain ⟨⟨ho, -⟩, hf⟩ := (both (wellFormed_aluRmImm ▸ hw)).imp_left both
  rw [← aluImm_eq_groupImm ho hf, ← Head.width_eq_bit0 ho (by decide)]
  exact aluImm_lt

end

/-- Settles O30, form by form: the template with a source that fits the width, and TEST without the write. -/
theorem bitwiseResults : Obligations.BitwiseResults := by
  intro s b ht w
  have hpolicy {op : Byte} (hp : flagPolicy op.toNat = 5) : s.stdPolicy op = policySzpLogic := stdPolicy_tRef ht hp
  refine ⟨fun op hop => ⟨fun m hw => ?_, fun imm hw => ?_, fun m imm hw => ?_⟩,
    fun m hw => ?_, fun imm hw => ?_, fun m imm hw => ?_⟩
  · rw [exec_aluRmReg_advance ht hw, State.alu_eq_bitwisePost ht hop (s.readOp_lt _ _)]
  · rw [exec_aluAccImm_advance ht hw, State.alu_eq_bitwisePost ht hop (accImm_lt hw)]
  · rw [exec_aluRmImm_advance ht hw, State.alu_eq_bitwisePost ht hop (groupImm_lt hw)]
  · obtain ⟨ho, -⟩ := both hw
    refine runRm_advance ht hw rfl rfl rfl ?_ rfl
    rw [hpolicy (range_of_in ho rfl), Head.width_eq_bit0 ho (by decide), State.test_eq_logicFlags ht (s.readOp_lt _ _)]
  · obtain ⟨⟨ho, -⟩, hf⟩ := (both hw).imp_left both
    refine run_advance ht hw rfl rfl rfl ?_ rfl
    rw [hpolicy (range_of_in ho rfl), immValue_of_fits hf, Head.width_eq_bit0 ho (by decide),
      State.test_eq_logicFlags ht (s.reg_lt _ _)]
  · obtain ⟨⟨ho, -⟩, hf⟩ := (both hw).imp_left both
    refine runRm_advance ht hw rfl rfl rfl ?_ rfl
    rw [immValue_of_fits hf, Head.width_eq_bit0 ho (by decide), State.test_eq_logicFlags ht (s.readOp_lt _ _)]

end Sys2Proof.Machine
end

section
/-! Rotation of a number of `M` bits (42_logical.md R207 to R210): what any number of single steps to the left or to the
right gives. -/

namespace Sys2Proof.Machine

/-- The bits of `x`, of `M` bits, rotated left by `j`: what leaves at the top enters at the bottom. -/
def rotated (M j x : Nat) : Nat := (x * 2 ^ j + x / 2 ^ (M - j)) % 2 ^ M

/-- The bits of `x`, of `M` bits, rotated right by 1. -/
def rotatedBack (M x : Nat) : Nat := x / 2 + x % 2 * 2 ^ (M - 1)

section
variable {M j x : Nat}

theorem rotated_lt (M j x : Nat) : rotated M j x < 2 ^ M := Nat.mod_lt _ (by positivity)

theorem rotated_zero (hx : x < 2 ^ M) : rotated M 0 x = x := by
  simp [rotated, Nat.div_eq_of_lt hx, Nat.mod_eq_of_lt hx]

theorem rotated_self (hx : x < 2 ^ M) : rotated M M x = x := by
  simp [rotated, Nat.mod_eq_of_lt hx]

/-- A rotation to the right by `j`, written as a right shift and what leaves at the bottom. -/
theorem rotated_sub (hj : j ≤ M) (x : Nat) :
    rotated M (M - j) x = (x / 2 ^ j + x * 2 ^ (M - j)) % 2 ^ M := by
  rw [rotated, Nat.sub_sub_self hj, Nat.add_comm]

/-- Low bits on top of high bits stay below the product of the two bounds. -/
theorem mul_add_lt_mul {a b p q : Nat} (ha : a < p) (hb : b < q) : a * q + b < p * q := by
  have := Nat.mul_le_mul_right q (Nat.succ_le_of_lt ha)
  linarith [Nat.succ_mul a q]

/-- The low `M - j` bits of `x` stand on top of its high `j` bits. -/
theorem rotated_eq_parts (hj : j ≤ M) (hx : x < 2 ^ M) :
    rotated M j x = x % 2 ^ (M - j) * 2 ^ j + x / 2 ^ (M - j) := by
  have hM : 2 ^ M = 2 ^ (M - j) * 2 ^ j := by rw [← pow_add, Nat.sub_add_cancel hj]
  have hhigh : x / 2 ^ (M - j) < 2 ^ j := Nat.div_lt_of_lt_mul (hM ▸ hx)
  have hlow : x % 2 ^ (M - j) < 2 ^ (M - j) := Nat.mod_lt _ (by positivity)
  rw [rotated, hM, ← Nat.mod_add_mod, Nat.mul_mod_mul_right, Nat.mod_eq_of_lt (mul_add_lt_mul hlow hhigh)]

/-- One more step to the left: the top bit of the low part, `x / 2 ^ k % 2`, moves to the bottom. -/
theorem rotated_one_rotated (hj : j < M) (hx : x < 2 ^ M) : rotated M 1 (rotated M j x) = rotated M (j + 1) x := by
  obtain ⟨k, rfl⟩ : ∃ k, M = k + 1 + j := ⟨M - j - 1, by omega⟩
  have hlow : x % 2 ^ k < 2 ^ k := Nat.mod_lt _ (by positivity)
  have hhigh : x / 2 ^ k / 2 < 2 ^ j := by
    rw [Nat.div_div_eq_div_mul, ← pow_succ]
    exact Nat.div_lt_of_lt_mul (pow_add 2 (k + 1) j ▸ hx)
  have hy := mul_add_lt_mul hlow hhigh
  have hrotated : rotated (k + 1 + j) j x =
      2 ^ k * 2 ^ j * (x / 2 ^ k % 2) + (x % 2 ^ k * 2 ^ j + x / 2 ^ k / 2) := by
    rw [rotated_eq_parts hj.le hx, Nat.add_sub_cancel, pow_succ, Nat.mod_mul, Nat.div_div_eq_div_mul]
    ring
  rw [rotated_eq_parts (by omega) (rotated_lt ..), rotated_eq_parts hj hx, hrotated,
    show k + 1 + j - 1 = k + j by omega, show k + 1 + j - (j + 1) = k by omega, pow_add, Nat.mul_add_mod,
    Nat.mul_add_div (by positivity), Nat.mod_eq_of_lt hy, Nat.div_eq_of_lt hy, pow_one,
    pow_succ 2 j]
  have := Nat.div_add_mod (x / 2 ^ k) 2
  linarith

/-- A step to the right undoes a step to the left. -/
theorem rotatedBack_rotated_one (hM : 1 ≤ M) (hx : x < 2 ^ M) : rotatedBack M (rotated M 1 x) = x := by
  have htop : x / 2 ^ (M - 1) < 2 :=
    Nat.div_lt_of_lt_mul (by rwa [← pow_succ, Nat.sub_add_cancel hM])
  rw [rotated_eq_parts hM hx, rotatedBack, pow_one, Nat.mul_add_mod', Nat.mod_eq_of_lt htop, Nat.mul_comm _ 2,
    Nat.mul_add_div two_pos, Nat.div_eq_of_lt htop, Nat.add_zero, Nat.mod_add_div']

theorem iterate_rotated_one (hj : j ≤ M) (hx : x < 2 ^ M) : (rotated M 1)^[j] x = rotated M j x := by
  induction j with
  | zero => exact (rotated_zero hx).symm
  | succ j ih => rw [Function.iterate_succ_apply', ih (by omega), rotated_one_rotated hj hx]

theorem iterate_rotatedBack (hj : j ≤ M) (hx : x < 2 ^ M) : (rotatedBack M)^[j] x = rotated M (M - j) x := by
  induction j with
  | zero => exact (rotated_self hx).symm
  | succ j ih =>
    have hback : M - j = M - (j + 1) + 1 := by omega
    rw [Function.iterate_succ_apply', ih (by omega), hback, ← rotated_one_rotated (by omega) hx,
      rotatedBack_rotated_one (by omega) (rotated_lt ..)]

/-- After `M` steps to the left every bit is where it was, so `n` of them are `n % M`. -/
theorem iterate_rotated_one_mod (hM : 0 < M) (hx : x < 2 ^ M) (n : Nat) :
    (rotated M 1)^[n] x = rotated M (n % M) x := by
  have hperiod : Function.IsPeriodicPt (rotated M 1) M x := (iterate_rotated_one le_rfl hx).trans (rotated_self hx)
  rw [← hperiod.iterate_mod_apply, iterate_rotated_one (Nat.mod_lt n hM).le hx]

/-- After `M` steps to the right every bit is where it was, so `n` of them are `n % M`. -/
theorem iterate_rotatedBack_mod (hM : 0 < M) (hx : x < 2 ^ M) (n : Nat) :
    (rotatedBack M)^[n] x = rotated M (M - n % M) x := by
  have hperiod : Function.IsPeriodicPt (rotatedBack M) M x := by
    have h := iterate_rotatedBack le_rfl hx
    rwa [Nat.sub_self, rotated_zero hx] at h
  rw [← hperiod.iterate_mod_apply, iterate_rotatedBack (Nat.mod_lt n hM).le hx]

end

end Sys2Proof.Machine
end

section
/-! The shifts and rotates (42_logical.md R206 to R213): any number of single steps in closed form, the flags,
and O31. -/

namespace Sys2Proof.Machine

open Sys2Proof.Laws Sys2Proof.Spec

section
variable {op : ShiftOp} {w : Width} {v n : Nat} {c : Bool} {x : ShiftState}

/-! ### Repeated steps (42_logical.md R206) -/

theorem bits_pos (w : Width) : 0 < w.bits := by cases w <;> decide

/-- A step keeps a value within the width. -/
theorem ShiftOp.step_lt (hx : x.v < 2 ^ w.bits) : (op.step w x).v < 2 ^ w.bits := by
  have hmod (k : Nat) : k % 2 ^ w.bits < 2 ^ w.bits := Nat.mod_lt _ (by positivity)
  have hhigh (b : Bool) : x.v / 2 + (if b then 2 ^ (w.bits - 1) else 0) < 2 ^ w.bits := by
    have hpow := two_pow_bits w
    split <;> omega
  cases op with
  | rol | rcl | shl => exact hmod _
  | ror | rcr | sar => exact hhigh _
  | shr => exact (Nat.div_le_self ..).trans_lt hx

theorem ShiftOp.steps_lt (n : Nat) (hx : x.v < 2 ^ w.bits) : (op.steps w n x).v < 2 ^ w.bits := by
  induction n generalizing x with
  | zero => exact hx
  | succ n ih => exact ih (step_lt hx)

/-- The last of the steps is a step. -/
theorem ShiftOp.steps_succ (op : ShiftOp) (w : Width) (n : Nat) (x : ShiftState) :
    op.steps w (n + 1) x = op.step w (op.steps w n x) := by
  induction n generalizing x with
  | zero => rfl
  | succ n ih => exact ih (op.step w x)

/-- What one step does to a view of value and carry, `n` steps do `n` times. -/
theorem ShiftOp.steps_view {α : Type} {view : ShiftState → α} {g : α → α}
    (h : ∀ {y : ShiftState}, y.v < 2 ^ w.bits → view (op.step w y) = g (view y)) (hx : x.v < 2 ^ w.bits) (n : Nat) :
    view (op.steps w n x) = g^[n] (view x) := by
  induction n generalizing x with
  | zero => rfl
  | succ n ih => rw [steps, ih (step_lt hx), h hx, Function.iterate_succ_apply]

/-! ### Rotates of the operand (42_logical.md R207, R208) -/

theorem toNat_testBit_top {M : Nat} (hM : 1 ≤ M) (hv : v < 2 ^ M) : (v.testBit (M - 1)).toNat = v / 2 ^ (M - 1) := by
  rw [Nat.toNat_testBit, Nat.mod_eq_of_lt (Nat.div_lt_of_lt_mul (by rwa [← pow_succ, Nat.sub_add_cancel hM]))]

theorem ite_testBit_zero (v k : Nat) : (if v.testBit 0 then k else 0) = v % 2 * k := by
  rw [Nat.testBit_zero]
  rcases Nat.mod_two_eq_zero_or_one v with h | h <;> simp [h]

/-- ROL rotates the value by 1, and the carry is the bit that came to the bottom. -/
theorem ShiftOp.step_rol (hx : x.v < 2 ^ w.bits) :
    ShiftOp.rol.step w x = ⟨rotated w.bits 1 x.v, (rotated w.bits 1 x.v).testBit 0⟩ := by
  have hvalue : rotated w.bits 1 x.v = (2 * x.v + (topBit w x.v).toNat) % 2 ^ w.bits := by
    rw [rotated, pow_one, Nat.mul_comm, topBit, toNat_testBit_top (bits_pos w) hx]
  have hcarry : (rotated w.bits 1 x.v).testBit 0 = topBit w x.v := by
    rw [rotated_eq_parts (bits_pos w) hx, Nat.testBit_zero, topBit, Nat.testBit_eq_decide_div_mod_eq, pow_one,
      Nat.mul_add_mod']
  rw [hcarry, hvalue]
  rfl

/-- ROR rotates the value back by 1, and the carry is the bit that came to the top. -/
theorem ShiftOp.step_ror (hx : x.v < 2 ^ w.bits) :
    ShiftOp.ror.step w x = ⟨rotatedBack w.bits x.v, (rotatedBack w.bits x.v).testBit (w.bits - 1)⟩ := by
  have hvalue : rotatedBack w.bits x.v = x.v / 2 + if x.v.testBit 0 then 2 ^ (w.bits - 1) else 0 := by
    rw [ite_testBit_zero, rotatedBack]
  have hlow : x.v / 2 < 2 ^ (w.bits - 1) := by
    have := two_pow_bits w
    omega
  have hcarry : (rotatedBack w.bits x.v).testBit (w.bits - 1) = x.v.testBit 0 := by
    rw [rotatedBack, Nat.testBit_eq_decide_div_mod_eq, Nat.add_mul_div_right _ _ (by positivity),
      Nat.div_eq_of_lt hlow, Nat.zero_add, Nat.mod_mod, Nat.testBit_zero]
  rw [hcarry, hvalue]
  rfl

theorem ShiftOp.steps_rol (hx : x.v < 2 ^ w.bits) (n : Nat) :
    (ShiftOp.rol.steps w n x).v = rotated w.bits (n % w.bits) x.v :=
  (steps_view (fun hy => congrArg ShiftState.v (step_rol hy)) hx n).trans (iterate_rotated_one_mod (bits_pos w) hx n)

theorem ShiftOp.steps_ror (hx : x.v < 2 ^ w.bits) (n : Nat) :
    (ShiftOp.ror.steps w n x).v = rotated w.bits (w.bits - n % w.bits) x.v :=
  (steps_view (fun hy => congrArg ShiftState.v (step_ror hy)) hx n).trans (iterate_rotatedBack_mod (bits_pos w) hx n)

/-! ### Rotates through the carry (42_logical.md R209, R210) -/

/-- The carry on top of the value, a number of `W + 1` bits. -/
def ShiftState.joined (w : Width) (x : ShiftState) : Nat := x.c.toNat * 2 ^ w.bits + x.v

theorem ShiftState.joined_lt (hx : x.v < 2 ^ w.bits) : x.joined w < 2 ^ (w.bits + 1) :=
  pow_succ' 2 w.bits ▸ mul_add_lt_mul x.c.toNat_lt hx

theorem ShiftState.joined_mod (hx : x.v < 2 ^ w.bits) : x.joined w % 2 ^ w.bits = x.v := by
  rw [joined, Nat.mul_add_mod', Nat.mod_eq_of_lt hx]

theorem ShiftState.joined_div (hx : x.v < 2 ^ w.bits) : x.joined w / 2 ^ w.bits = x.c.toNat := by
  rw [joined, Nat.mul_comm, Nat.mul_add_div (by positivity), Nat.div_eq_of_lt hx, Nat.add_zero]

theorem ShiftState.testBit_joined (hx : x.v < 2 ^ w.bits) : (x.joined w).testBit w.bits = x.c := by
  rw [Nat.testBit_eq_decide_div_mod_eq, joined_div hx]
  cases x.c <;> rfl

/-- Value and carry read back from the joined number. -/
theorem ShiftState.eq_of_joined (hx : x.v < 2 ^ w.bits) {r : Nat} (hr : x.joined w = r) :
    x = ⟨r % 2 ^ w.bits, r.testBit w.bits⟩ := by
  rw [← hr, joined_mod hx, testBit_joined hx]

/-- RCL rotates the value with the carry on top by 1. -/
theorem ShiftOp.joined_step_rcl (hx : x.v < 2 ^ w.bits) :
    (ShiftOp.rcl.step w x).joined w = rotated (w.bits + 1) 1 (x.joined w) := by
  have hstep : ShiftOp.rcl.step w x = ⟨(2 * x.v + x.c.toNat) % 2 ^ w.bits, topBit w x.v⟩ := rfl
  have htop : (2 * x.v + x.c.toNat) / 2 ^ w.bits = x.v / 2 ^ (w.bits - 1) := by
    rw [two_pow_bits, ← Nat.div_div_eq_div_mul, Nat.mul_add_div two_pos, Nat.div_eq_of_lt x.c.toNat_lt, Nat.add_zero]
  rw [rotated_eq_parts (Nat.le_add_left ..) (ShiftState.joined_lt hx), Nat.add_sub_cancel, ShiftState.joined_mod hx,
    ShiftState.joined_div hx, hstep, ShiftState.joined, topBit, toNat_testBit_top (bits_pos w) hx, ← htop, pow_one,
    Nat.mul_comm x.v, Nat.div_add_mod']

/-- RCR rotates the value with the carry on top back by 1. -/
theorem ShiftOp.joined_step_rcr :
    (ShiftOp.rcr.step w x).joined w = rotatedBack (w.bits + 1) (x.joined w) := by
  have hstep : ShiftOp.rcr.step w x = ⟨x.v / 2 + if x.c then 2 ^ (w.bits - 1) else 0, x.v.testBit 0⟩ := rfl
  have hhigh : (if x.c then 2 ^ (w.bits - 1) else 0) = x.c.toNat * 2 ^ (w.bits - 1) := by cases x.c <;> simp
  have hlow : (x.v.testBit 0).toNat = x.v % 2 := by rw [Nat.toNat_testBit, pow_zero, Nat.div_one]
  have hsum : x.joined w = 2 * (x.c.toNat * 2 ^ (w.bits - 1)) + x.v := by
    rw [ShiftState.joined, two_pow_bits, Nat.mul_left_comm]
  rw [rotatedBack, hsum, Nat.mul_add_div two_pos, Nat.mul_add_mod, Nat.add_sub_cancel, hstep, ShiftState.joined, hhigh,
    hlow]
  ring

theorem ShiftOp.joined_steps_rcl (hx : x.v < 2 ^ w.bits) (n : Nat) :
    (ShiftOp.rcl.steps w n x).joined w = rotated (w.bits + 1) (n % (w.bits + 1)) (x.joined w) :=
  (steps_view joined_step_rcl hx n).trans
    (iterate_rotated_one_mod (Nat.succ_pos _) (ShiftState.joined_lt hx) n)

theorem ShiftOp.joined_steps_rcr (hx : x.v < 2 ^ w.bits) (n : Nat) :
    (ShiftOp.rcr.steps w n x).joined w = rotated (w.bits + 1) (w.bits + 1 - n % (w.bits + 1)) (x.joined w) :=
  (steps_view (fun _ => joined_step_rcr) hx n).trans
    (iterate_rotatedBack_mod (Nat.succ_pos _) (ShiftState.joined_lt hx) n)

/-! ### Shifts (42_logical.md R211 to R213) -/

theorem ShiftOp.step_shl : ShiftOp.shl.step w x = ⟨2 * x.v % 2 ^ w.bits, x.v.testBit (w.bits - 1)⟩ := rfl

theorem ShiftOp.step_shr : ShiftOp.shr.step w x = ⟨x.v / 2, x.v.testBit 0⟩ := rfl

theorem ShiftOp.step_sar :
    ShiftOp.sar.step w x = ⟨x.v / 2 + if topBit w x.v then 2 ^ (w.bits - 1) else 0, x.v.testBit 0⟩ := rfl

theorem ShiftOp.steps_shl (hx : x.v < 2 ^ w.bits) (n : Nat) :
    (ShiftOp.shl.steps w n x).v = x.v * 2 ^ n % 2 ^ w.bits := by
  induction n with
  | zero => rw [pow_zero, Nat.mul_one, Nat.mod_eq_of_lt hx, steps]
  | succ n ih => rw [steps_succ, step_shl, ih, Nat.mul_mod_mod, pow_succ', Nat.mul_left_comm]

theorem ShiftOp.steps_shr (n : Nat) : (ShiftOp.shr.steps w n x).v = x.v / 2 ^ n := by
  induction n with
  | zero => rw [pow_zero, Nat.div_one, steps]
  | succ n ih => rw [steps_succ, step_shr, ih, Nat.div_div_eq_div_mul, pow_succ]

/-- The bit that the last of `n + 1` steps shifts out at the top, if the operand has so many. -/
theorem ShiftOp.steps_shl_carry (hx : x.v < 2 ^ w.bits) (n : Nat) :
    (ShiftOp.shl.steps w (n + 1) x).c = (decide (n + 1 ≤ w.bits) && x.v.testBit (w.bits - (n + 1))) := by
  have hpos := bits_pos w
  have hfits : decide (n ≤ w.bits - 1) = decide (n + 1 ≤ w.bits) := decide_eq_decide.mpr (by omega)
  rw [steps_succ, step_shl, steps_shl hx, Nat.testBit_mod_two_pow, Nat.testBit_mul_two_pow,
    decide_eq_true (by omega), Bool.true_and, hfits, Nat.sub_sub, Nat.add_comm 1 n]

/-- The bit that the last of `n + 1` steps shifts out at the bottom. -/
theorem ShiftOp.steps_shr_carry (n : Nat) : (ShiftOp.shr.steps w (n + 1) x).c = x.v.testBit n := by
  rw [steps_succ, step_shr, steps_shr, Nat.testBit_div_two_pow, Nat.zero_add]

theorem narrow_signedOf (hv : v < 2 ^ w.bits) : narrow w (signedOf w v) = v := by
  have := signedOf_cases w v
  cases w <;> simp only [narrow, Width.bits, Nat.reduceSub] at * <;> omega

/-- The signed reading of a number has its parity (00_scope.md R9). -/
theorem signedOf_emod_two (w : Width) (v : Nat) : signedOf w v % 2 = (v % 2 : Nat) := by
  have := signedOf_cases w v
  cases w <;> simp only [Width.bits, Nat.reduceSub] at * <;> omega

/-- A step of SAR halves the signed value, rounding down (00_scope.md R9). -/
theorem ShiftOp.signedOf_step_sar (hx : x.v < 2 ^ w.bits) :
    signedOf w (ShiftOp.sar.step w x).v = signedOf w x.v / 2 := by
  have hbefore := signedOf_cases w x.v
  have hafter := signedOf_cases w (ShiftOp.sar.step w x).v
  have hstep : (ShiftOp.sar.step w x).v = x.v / 2 + if 2 ^ (w.bits - 1) ≤ x.v then 2 ^ (w.bits - 1) else 0 := by
    rw [step_sar, topBit_eq_decide hx]
    simp only [decide_eq_true_eq]
  split at hstep <;> cases w <;> simp only [Width.bits, Nat.reduceSub] at * <;> omega

theorem ShiftOp.signedOf_steps_sar (hx : x.v < 2 ^ w.bits) (n : Nat) :
    signedOf w (ShiftOp.sar.steps w n x).v = signedOf w x.v / 2 ^ n := by
  induction n with
  | zero => rw [pow_zero, Int.ediv_one, steps]
  | succ n ih =>
    rw [steps_succ, signedOf_step_sar (steps_lt n hx), ih, Int.ediv_ediv_of_nonneg (by positivity), pow_succ]

theorem ShiftOp.steps_sar (hx : x.v < 2 ^ w.bits) (n : Nat) :
    (ShiftOp.sar.steps w n x).v = narrow w (signedOf w x.v / 2 ^ n) := by
  rw [← signedOf_steps_sar hx, narrow_signedOf (steps_lt n hx)]

/-- The lowest bit of the signed value before the last of `n + 1` steps. -/
theorem ShiftOp.steps_sar_carry (hx : x.v < 2 ^ w.bits) (n : Nat) :
    (ShiftOp.sar.steps w (n + 1) x).c = decide (signedOf w x.v / 2 ^ n % 2 = 1) := by
  rw [steps_succ, step_sar, ← signedOf_steps_sar hx, signedOf_emod_two, Nat.testBit_zero]
  norm_cast

end

/-! ### Value and carry -/

/-- One or more steps are what the closed form says (42_logical.md R206 to R213). -/
theorem ShiftOp.steps_eq_shiftValue (op : ShiftOp) {w : Width} {v : Nat} (hv : v < 2 ^ w.bits) (c : Bool) {n : Nat}
    (hn : n ≠ 0) : op.steps w n ⟨v, c⟩ = ⟨(shiftValue op w n v c).1, (shiftValue op w n v c).2⟩ := by
  obtain ⟨m, rfl⟩ := Nat.exists_eq_succ_of_ne_zero hn
  have hbefore : (op.steps w m ⟨v, c⟩).v < 2 ^ w.bits := steps_lt m hv
  have hafter : (op.steps w (m + 1) ⟨v, c⟩).v < 2 ^ w.bits := steps_lt (m + 1) hv
  cases op with
  | rol =>
    have hvalue := steps_rol (x := ⟨v, c⟩) hv (m + 1)
    rw [steps_succ, step_rol hbefore] at hvalue ⊢
    exact congrArg (fun r => (⟨r, r.testBit 0⟩ : ShiftState)) hvalue
  | ror =>
    have hvalue := (steps_ror (x := ⟨v, c⟩) hv (m + 1)).trans (rotated_sub (Nat.mod_lt _ (bits_pos w)).le _)
    rw [steps_succ, step_ror hbefore] at hvalue ⊢
    exact congrArg (fun r => (⟨r, r.testBit (w.bits - 1)⟩ : ShiftState)) hvalue
  | rcl => exact ShiftState.eq_of_joined hafter (joined_steps_rcl hv (m + 1))
  | rcr =>
    exact ShiftState.eq_of_joined hafter
      ((joined_steps_rcr hv (m + 1)).trans (rotated_sub (Nat.mod_lt _ (Nat.succ_pos _)).le _))
  | shl => exact congrArg₂ ShiftState.mk (steps_shl hv (m + 1)) (steps_shl_carry hv m)
  | shr => exact congrArg₂ ShiftState.mk (steps_shr (m + 1)) (steps_shr_carry m)
  | sar => exact congrArg₂ ShiftState.mk (steps_sar hv (m + 1)) (steps_sar_carry hv m)

theorem shiftValue_lt (op : ShiftOp) {w : Width} {v : Nat} (hv : v < 2 ^ w.bits) (c : Bool) {n : Nat} (hn : n ≠ 0) :
    (shiftValue op w n v c).1 < 2 ^ w.bits := by
  have hlt : (op.steps w n ⟨v, c⟩).v < 2 ^ w.bits := ShiftOp.steps_lt n hv
  rwa [op.steps_eq_shiftValue hv c hn] at hlt

/-! ### The flags (42_logical.md R206; 93_implementation_defined.md U1) -/

/-- The flags are those the rules give: of the ones left open, AF and OF are the draws of the pass. -/
theorem State.shiftFlagsOk_shiftFlags {s : State} (ht : s.tables = tRef) (op : ShiftOp) {w : Width} (n v0 : Nat)
    {x : ShiftState} (hx : x.v < 2 ^ w.bits) :
    shiftFlagsOk op w n v0 x.v x.c s.flags (s.shiftFlags op w n v0 x) := by
  have hszp (f : Flags) : f.policy s.tables w policySZP ⟨0, v0, x.v⟩ = Spec.szp w x.v f := by
    rw [ht, policySZP, Flags.policy_szp, Flags.szp_tRef hx]
  have hsets : setsSzp op = op.isShift := by cases op <;> rfl
  have hof : op.overflowOne w v0 x = shiftOverflow op w v0 x.v x.c := by cases op <;> rfl
  unfold shiftFlagsOk State.shiftFlags
  simp only [hszp, hsets, hof]
  cases op.isShift with
  | false => by_cases hn : n = 1 <;> simp [hn, Flags.drawOf, controlKept]
  | true => by_cases hn : n = 1 <;> simp [hn, Flags.drawOf, Flags.drawAf, controlKept, szpOf, Spec.szp]

/-! ### The instructions -/

section
variable {op : ShiftOp} {byCl : Bool} {s : State} {h : Head}

theorem exec_shiftInstr : exec (shiftInstr op byCl h) s = runRm h s fun rm _ =>
    .done (s.shift op h.width rm (if byCl then s.cl.toNat else 1)) := by
  cases op <;> cases byCl <;> rfl

theorem opIn_of_wellFormed_shiftInstr (hw : (shiftInstr op byCl h).wellFormed = true) : h.opIn 0xD0 0xD3 = true := by
  cases byCl <;> cases op <;> exact opIn_mono (both hw).1 (by decide) (by decide)

theorem State.shift_of_ne_zero (s : State) (op : ShiftOp) (w : Width) (o : Operand) {n : Nat} (hn : n ≠ 0) :
    s.shift op w o n =
      let v0 := s.readOp w o
      let x := shiftValue op w n v0 s.flags.cf
      { s.writeOp w o x.1 with flags := s.shiftFlags op w n v0 ⟨x.1, x.2⟩ } := by
  simp only [State.shift, if_neg hn, op.steps_eq_shiftValue (s.readOp_lt w o) s.flags.cf hn]

theorem State.shift_ip (s : State) (op : ShiftOp) (w : Width) (o : Operand) (n : Nat) :
    (s.shift op w o n).ip = s.ip := by
  unfold State.shift
  split
  · rfl
  · exact State.writeOp_ip ..

theorem exec_shiftInstr_advance {b : Byte} {m : ModRM} (ht : s.tables = tRef)
    (hw : (shiftInstr op byCl ⟨b, some m⟩).wellFormed = true) :
    exec (shiftInstr op byCl ⟨b, some m⟩) s = .next (advance (shiftInstr op byCl ⟨b, some m⟩)
      (s.shift op (Width.ofBit (b.getLsbD 0)) (operand s m.ea) (if byCl then s.cl.toNat else 1))) := by
  rw [exec_shiftInstr]
  refine runRm_advance ht hw (by cases op <;> cases byCl <;> rfl) (by cases op <;> cases byCl <;> rfl) rfl ?_
    (State.shift_ip ..)
  rw [Head.width_eq_bit0 (opIn_of_wellFormed_shiftInstr hw) (by decide)]

end

/-- Settles O31: the steps in closed form, and the flags of the last one. -/
theorem shiftResults : Obligations.ShiftResults := by
  intro op byCl s b m ht hw i w n v0 x
  have hexec : exec i s = .next (advance i (s.shift op w (operand s m.ea) n)) := exec_shiftInstr_advance ht hw
  rw [hexec]
  refine ⟨fun hn => by rw [State.shift, if_pos hn], fun hn => ⟨_, ?_, by rw [State.shift_of_ne_zero s op w _ hn]⟩⟩
  exact State.shiftFlagsOk_shiftFlags ht op n v0 (shiftValue_lt op (s.readOp_lt w _) s.flags.cf hn)

end Sys2Proof.Machine
end

section
/-! The pass of a well-formed instruction under `T_REF` whose handler writes IP (30_encoding.md R113), the relative targets
(43_control_transfer.md R230), and the words on the stack (45_stack.md R290). -/

namespace Sys2Proof.Machine

open Sys2Proof.Laws Sys2Proof.Spec

/-! ### Decoding an opcode byte without ModRM byte -/

/-- A window that starts with an opcode byte, and goes on with the operand bytes of its instruction, decodes to it. -/
theorem decode_of_opcode_tail {i : Instr} {op : Byte} {l : List Byte} {x : Window} (hw : i.wellFormed = true)
    (he : encode i = op :: l) (hx : x.b0 = op) (hl : l <+: [x.b1, x.b2, x.b3, x.b4, x.b5]) : decode tRef x = i := by
  refine decode_of_prefix hw ?_
  rw [he, ← hx]
  exact (List.prefix_cons_inj x.b0).mpr hl

/-- The word behind the opcode byte has its low byte first (30_encoding.md R110). -/
theorem wordBytes_b1_prefix (x : Window) : wordBytes (x.b2 ++ x.b1) <+: [x.b1, x.b2, x.b3, x.b4, x.b5] :=
  x.word_prefix (k := 1) (by decide)

/-- The offset of a far pointer stands before its segment (43_control_transfer.md R249). -/
theorem farBytes_prefix (x : Window) :
    wordBytes (x.b2 ++ x.b1) ++ wordBytes (x.b4 ++ x.b3) <+: [x.b1, x.b2, x.b3, x.b4, x.b5] := by
  have hoff : wordBytes (x.b2 ++ x.b1) = [x.b1, x.b2] :=
    congrArg₂ (fun l h => [l, h]) (loByte_mkWord x.b1 x.b2) (hiByte_mkWord x.b1 x.b2)
  rw [hoff]
  exact (List.prefix_append_right_inj [x.b1, x.b2]).mpr (x.word_prefix (k := 3) (by decide))

/-! ### The pass -/

section
variable {i : Instr} {h : Head} {s t u : State} {m : ModRM} {f : Operand → BitVec 3 → Result}

/-- The handler's `next_ip` is the offset behind the encoded bytes (30_encoding.md R112). -/
theorem State.nextIp_of_wellFormed (ht : s.tables = tRef) (hw : i.wellFormed = true) (hr : isReserved i = false)
    (hh : i.head = h) : s.nextIp h = Spec.nextIp i s := by
  subst hh
  have hlen : instLen tRef i.head = (encode i).length :=
    instLen_of_wellFormed i (fun h hc => by rw [hc] at hr; cases hr) hw
  simp only [State.nextIp, Spec.nextIp, ht, hlen]

/-- An instruction without a ModRM byte whose handler leaves `t`, and IP in it. -/
theorem runTable_jumped (op : Byte) (ht : s.tables = tRef) (hp : flagPolicy op.toNat = 0) (hu : u = t) :
    runTable ⟨op, none⟩ s (.jump u) = .next (jumped t) := by
  rw [runTable_tRef ht hp rfl, hu]
  rfl

/-- An instruction with a ModRM operand whose handler leaves `t`, and IP in it. -/
theorem runRmTable_jumped (ht : s.tables = tRef) (hw : i.wellFormed = true) (hp : flagPolicy h.op.toNat = 0)
    (hh : i.head = h) (hm : h.modrm = some m) (hf : f (operand s m.ea) m.reg = .jump t) :
    runRmTable h s f = .next (jumped t) := by
  rw [runRmTable_tRef ht hp hm (ea_wellFormed hw hh hm), hf]
  rfl

/-! ### Relative targets -/

/-- A jump that the handler takes or leaves sets IP to the target or to `next_ip` (43_control_transfer.md R230). The handler
may have written registers before it. -/
theorem finish_jumpIf (hip : t.ip = s.ip) (ht : t.tables = s.tables) (taken : Bool) (rel : Byte) :
    finish h s (t.jumpIf h taken rel) = .next (jumped
      { t with ip := if taken then s.nextIp h + rel.signExtend 16 else s.nextIp h }) := by
  cases taken with
  | false => rfl
  | true =>
    have htarget : t.target h (sext rel) = s.nextIp h + rel.signExtend 16 := by
      simp only [State.target, State.nextIp, hip, ht, sext]
    simp only [State.jumpIf, if_true, htarget]
    rfl

/-- CX falls to 0 exactly from 1. -/
theorem sub_one_bne_zero (v : Word) : (v - 1 != 0) = decide (v ≠ 1) := by
  have h : v - 1 = 0 ↔ v = 1 := by bv_omega
  simp only [bne, beq_eq_decide, h, decide_not]

/-- LOOP, LOOPZ and LOOPNZ (43_control_transfer.md R261 to R263). -/
theorem finish_loopJump (also : Bool) (rel : Byte) :
    finish h s (s.loopJump h also rel) = .next (jumped
      { s with
        cx := s.cx - 1
        ip := if s.cx ≠ 1 ∧ also = true then s.nextIp h + rel.signExtend 16 else s.nextIp h }) := by
  refine (finish_jumpIf (s := s) (t := { s with cx := s.cx - 1 }) rfl rfl (s.cx - 1 != 0 && also) rel).trans ?_
  simp only [sub_one_bne_zero, Bool.and_eq_true, decide_eq_true_eq]

end

/-! ### The stack -/

theorem State.push_eq_pushed (s : State) (v : Word) : s.push v = pushed s v := rfl

theorem State.top_eq_stackWord (s : State) : s.top = stackWord s 0 := by
  simp only [stackWord, Nat.mul_zero, BitVec.add_zero]
  rfl

/-- After one word is popped, the next one is at the top. -/
theorem stackWord_drop (s : State) (k : Nat) : stackWord s.drop k = stackWord s (k + 1) := by
  have hsp : s.sp + 2 + BitVec.ofNat 16 (2 * k) = s.sp + BitVec.ofNat 16 (2 * (k + 1)) := by
    rw [Nat.mul_succ, Nat.add_comm, BitVec.ofNat_add, ← BitVec.add_assoc]
    rfl
  simp only [stackWord, State.drop_mem, State.drop_ss, State.drop_sp, hsp]

/-- Two pops raise SP by 4. -/
theorem State.drop_drop_sp (s : State) : s.drop.drop.sp = s.sp + 4 := BitVec.add_assoc s.sp 2 2

end Sys2Proof.Machine
end

section
/-! The control transfer instructions (43_control_transfer.md R230 to R264): O37 to O42. -/

namespace Sys2Proof.Machine

open Sys2Proof.Laws Sys2Proof.Spec

/-! ### Conditional jumps -/

/-- The four table entries of a condition number give the condition that is not inverted (43_control_transfer.md R230). -/
theorem condition_tRef (f : Flags) {k : Nat} (hk : k < 8) :
    condition tRef f (BitVec.ofNat 3 k) = some (Spec.condition f (2 * k)) := by
  interval_cases k <;> simp [condition, Flags.tableCell, Flags.cell, Spec.condition, lookup8, tRef]

/-- The condition numbers go in pairs: the odd one is the inversion of the even one before it. -/
theorem condition_odd (f : Flags) {k : Nat} (hk : k < 8) :
    Spec.condition f (2 * k + 1) = !Spec.condition f (2 * k) := by
  interval_cases k <;> rfl

/-- `B0[3:1]` and `B0[0]` of the opcode byte `0x70 + cc`. -/
theorem jccOpcode_fields {cc : Nat} (hcc : cc < 16) :
    (BitVec.ofNat 8 (0x70 + cc)).extractLsb' 1 3 = BitVec.ofNat 3 (cc / 2) ∧
      (BitVec.ofNat 8 (0x70 + cc)).getLsbD 0 = decide (cc % 2 = 1) := by
  revert cc; decide

/-- A conditional jump tests the condition of its number (43_control_transfer.md R230 to R246). -/
theorem State.condJump_tRef {s : State} (ht : s.tables = tRef) {cc : Nat} (hcc : cc < 16) (rel : Byte) :
    s.condJump ⟨BitVec.ofNat 8 (0x70 + cc), none⟩ rel =
      s.jumpIf ⟨BitVec.ofNat 8 (0x70 + cc), none⟩ (Spec.condition s.flags cc) rel := by
  obtain ⟨hnumber, hinversion⟩ := jccOpcode_fields hcc
  have hinverted : (Spec.condition s.flags (2 * (cc / 2)) ^^ decide (cc % 2 = 1)) = Spec.condition s.flags cc := by
    rcases Nat.mod_two_eq_zero_or_one cc with h | h
    · rw [show 2 * (cc / 2) = cc by omega, h]
      exact Bool.xor_false _
    · rw [h, decide_eq_true rfl, Bool.xor_true, ← condition_odd _ (by omega), show 2 * (cc / 2) + 1 = cc by omega]
  simp only [State.condJump, ht, hnumber, hinversion, condition_tRef s.flags (show cc / 2 < 8 by omega), hinverted]

theorem exec_jcc (cc : Nat) (rel : Byte) (s : State) :
    exec (jcc cc rel) s = runTable ⟨BitVec.ofNat 8 (0x70 + cc), none⟩ s
      (s.condJump ⟨BitVec.ofNat 8 (0x70 + cc), none⟩ rel) := by
  unfold jcc; split <;> rfl

theorem head_jcc (cc : Nat) (rel : Byte) : (jcc cc rel).head = ⟨BitVec.ofNat 8 (0x70 + cc), none⟩ := by
  unfold jcc; split <;> rfl

theorem isReserved_jcc (cc : Nat) (rel : Byte) : isReserved (jcc cc rel) = false := by
  unfold jcc; split <;> rfl

theorem wellFormed_jcc {cc : Nat} (hcc : cc < 16) (rel : Byte) : (jcc cc rel).wellFormed = true := by
  interval_cases cc <;> rfl

theorem flagPolicy_jcc {cc : Nat} (hcc : cc < 16) : flagPolicy (BitVec.ofNat 8 (0x70 + cc)).toNat = 0 := by
  interval_cases cc <;> rfl

/-- Settles O37: the opcode byte names the condition, and a jump that is not taken goes to `next_ip`. -/
theorem conditionalJumps : Obligations.ConditionalJumps := by
  intro cc rel s hcc ht
  rw [exec_jcc, runTable_tRef ht (flagPolicy_jcc hcc) rfl, State.condJump_tRef ht hcc, finish_jumpIf rfl rfl,
    State.nextIp_of_wellFormed ht (wellFormed_jcc hcc rel) (isReserved_jcc cc rel) (head_jcc cc rel)]
  cases Spec.condition s.flags cc <;> rfl

/-! ### Jumps -/

/-- Settles O38, form by form. -/
theorem directJumps : Obligations.DirectJumps := by
  intro s x ht
  refine ⟨fun hx => ⟨decode_of_opcode_tail rfl rfl hx ⟨_, rfl⟩, ⟨rfl, rfl⟩, rfl, ?_⟩,
    fun hx => ⟨decode_of_opcode_tail rfl rfl hx (wordBytes_b1_prefix x), ⟨rfl, rfl⟩, rfl, ?_⟩,
    fun hx => ⟨decode_of_opcode_tail rfl rfl hx (farBytes_prefix x), ⟨rfl, rfl⟩, rfl, ?_⟩⟩
  · have hnext : s.nextIp ⟨0xEB, none⟩ = s.ip + 2 :=
      State.nextIp_of_wellFormed (i := .jmpRel8 ⟨0xEB, none⟩ x.b1) ht rfl rfl rfl
    exact runTable_jumped 0xEB ht rfl (by rw [State.target, hnext]; rfl)
  · have hnext : s.nextIp ⟨0xE9, none⟩ = s.ip + 3 :=
      State.nextIp_of_wellFormed (i := .jmpRel16 ⟨0xE9, none⟩ (x.b2 ++ x.b1)) ht rfl rfl rfl
    exact runTable_jumped 0xE9 ht rfl (by rw [State.target, hnext])
  · exact runTable_jumped 0xEA ht rfl rfl

/-- Settles O39: the resolver gives the operand, and the far jump faults on a register. -/
theorem indirectJumps : Obligations.IndirectJumps := by
  intro s m ht
  refine ⟨fun hw => runRmTable_jumped ht hw rfl rfl rfl rfl, fun hw => ?_⟩
  refine (runRmTable_tRef ht rfl rfl (ea_wellFormed hw rfl rfl) _).trans ?_
  cases operand s m.ea with
  | mem ea a => rfl
  | reg n => rfl

/-! ### Calls -/

/-- Settles O40: `next_ip` is what is pushed, and the operand is read in the state before the pushes. -/
theorem calls : Obligations.Calls := by
  intro s ht
  refine ⟨fun rel => ?_, fun off seg => ?_, fun m hw => ?_, fun m hw => ?_⟩
  · have hnext : s.nextIp ⟨0xE8, none⟩ = s.ip + 3 :=
      State.nextIp_of_wellFormed (i := .callRel ⟨0xE8, none⟩ rel) ht rfl rfl rfl
    exact runTable_jumped 0xE8 ht rfl (by rw [State.target, hnext]; rfl)
  · have hnext : s.nextIp ⟨0x9A, none⟩ = s.ip + 5 :=
      State.nextIp_of_wellFormed (i := .callFar ⟨0x9A, none⟩ off seg) ht rfl rfl rfl
    exact runTable_jumped 0x9A ht rfl (by rw [hnext]; rfl)
  · refine runRmTable_jumped ht hw rfl rfl rfl ?_
    rw [State.nextIp_of_wellFormed (h := ⟨0xFF, some m⟩) ht hw rfl rfl, State.push_eq_pushed]
  · refine (runRmTable_tRef ht rfl rfl (ea_wellFormed hw rfl rfl) _).trans ?_
    rw [State.nextIp_of_wellFormed (h := ⟨0xFF, some m⟩) ht hw rfl rfl, State.push_eq_pushed, State.push_eq_pushed]
    cases operand s m.ea with
    | mem ea a => rfl
    | reg n => rfl

/-! ### Returns -/

/-- RET pops IP (43_control_transfer.md R256). -/
theorem State.ret_eq (s : State) :
    { s.drop with ip := s.top } = { s with ip := stackWord s 0, sp := s.sp + 2 } := by
  rw [s.top_eq_stackWord]
  rfl

/-- RETF pops IP, then CS (43_control_transfer.md R258). -/
theorem State.retf_eq (s : State) :
    { s.drop.drop with ip := s.top, cs := s.drop.top } =
      { s with ip := stackWord s 0, cs := stackWord s 1, sp := s.sp + 4 } := by
  rw [← s.drop_drop_sp, s.top_eq_stackWord, s.drop.top_eq_stackWord, stackWord_drop s]
  rfl

/-- IRET pops IP, CS and the flags word (43_control_transfer.md R260). -/
theorem State.interruptReturn_eq (s : State) :
    s.interruptReturn = { s with
      ip := stackWord s 0, cs := stackWord s 1, flags := Flags.ofWord (stackWord s 2), sp := s.sp + 6 } := by
  have hsp : s.drop.drop.drop.sp = s.sp + 6 := by
    rw [State.drop_sp, s.drop_drop_sp]
    exact BitVec.add_assoc s.sp 4 2
  rw [State.interruptReturn, s.top_eq_stackWord, s.drop.top_eq_stackWord, s.drop.drop.top_eq_stackWord,
    stackWord_drop s, stackWord_drop s.drop, stackWord_drop s, ← hsp]
  rfl

/-- Settles O41: each pop reads the next word above the top of the stack. -/
theorem returns : Obligations.Returns := by
  intro s x ht
  refine ⟨fun hx => ⟨decode_of_opcode rfl rfl hx, ⟨rfl, rfl⟩, rfl, ?_⟩,
    fun hx => ⟨decode_of_opcode_tail rfl rfl hx (wordBytes_b1_prefix x), ⟨rfl, rfl⟩, rfl, ?_⟩,
    fun hx => ⟨decode_of_opcode rfl rfl hx, ⟨rfl, rfl⟩, rfl, ?_⟩,
    fun hx => ⟨decode_of_opcode_tail rfl rfl hx (wordBytes_b1_prefix x), ⟨rfl, rfl⟩, rfl, ?_⟩,
    fun hx => ⟨decode_of_opcode rfl rfl hx, ⟨rfl, rfl⟩, rfl, ?_⟩⟩
  · exact runTable_jumped 0xC3 ht rfl s.ret_eq
  · exact runTable_jumped 0xC2 ht rfl (congrArg (fun t : State => { t with sp := t.sp + (x.b2 ++ x.b1) }) s.ret_eq)
  · exact runTable_jumped 0xCB ht rfl s.retf_eq
  · exact runTable_jumped 0xCA ht rfl (congrArg (fun t : State => { t with sp := t.sp + (x.b2 ++ x.b1) }) s.retf_eq)
  · exact runTable_jumped 0xCF ht rfl s.interruptReturn_eq

/-! ### Loops -/

/-- The pass of LOOP, LOOPZ and LOOPNZ. -/
theorem runTable_loopJump {op : Byte} {s : State} (ht : s.tables = tRef) (hp : flagPolicy op.toNat = 0)
    (hnext : s.nextIp ⟨op, none⟩ = s.ip + 2) (also : Bool) (rel : Byte) :
    runTable ⟨op, none⟩ s (s.loopJump ⟨op, none⟩ also rel) = .next (jumped
      { s with
        cx := s.cx - 1
        ip := if s.cx ≠ 1 ∧ also = true then s.ip + 2 + rel.signExtend 16 else s.ip + 2 }) := by
  rw [runTable_tRef ht hp rfl, finish_loopJump, hnext]

/-- Settles O42: CX counts down to the test, and JCXZ tests it as it is. -/
theorem loopInstructions : Obligations.LoopInstructions := by
  intro s x ht target
  refine ⟨fun hx => ⟨decode_of_opcode_tail rfl rfl hx ⟨_, rfl⟩, ⟨rfl, rfl⟩, rfl, ?_⟩,
    fun hx => ⟨decode_of_opcode_tail rfl rfl hx ⟨_, rfl⟩, ⟨rfl, rfl⟩, rfl, ?_⟩,
    fun hx => ⟨decode_of_opcode_tail rfl rfl hx ⟨_, rfl⟩, ⟨rfl, rfl⟩, rfl, ?_⟩,
    fun hx => ⟨decode_of_opcode_tail rfl rfl hx ⟨_, rfl⟩, ⟨rfl, rfl⟩, rfl, ?_⟩⟩
  · have hnext : s.nextIp ⟨0xE2, none⟩ = s.ip + 2 :=
      State.nextIp_of_wellFormed (i := .loop ⟨0xE2, none⟩ x.b1) ht rfl rfl rfl
    refine (runTable_loopJump ht rfl hnext true x.b1).trans ?_
    simp only [and_true, ite_not, target]
  · have hnext : s.nextIp ⟨0xE1, none⟩ = s.ip + 2 :=
      State.nextIp_of_wellFormed (i := .loopz ⟨0xE1, none⟩ x.b1) ht rfl rfl rfl
    exact runTable_loopJump ht rfl hnext s.flags.zf x.b1
  · have hnext : s.nextIp ⟨0xE0, none⟩ = s.ip + 2 :=
      State.nextIp_of_wellFormed (i := .loopnz ⟨0xE0, none⟩ x.b1) ht rfl rfl rfl
    refine (runTable_loopJump ht rfl hnext (!s.flags.zf) x.b1).trans ?_
    simp only [Bool.not_eq_true', target]
  · have hnext : s.nextIp ⟨0xE3, none⟩ = s.ip + 2 :=
      State.nextIp_of_wellFormed (i := .jcxz ⟨0xE3, none⟩ x.b1) ht rfl rfl rfl
    refine (runTable_tRef (h := ⟨0xE3, none⟩) ht rfl rfl _).trans ?_
    simp only [finish_jumpIf, hnext, beq_iff_eq, target]

end Sys2Proof.Machine
end

section
/-! The string instructions (44_string.md R270 to R276): the state after `k` elements in closed form, how a repetition
ends, and O43, O44, O59. -/

namespace Sys2Proof.Machine

open Sys2Proof.Laws Sys2Proof.Spec

/-! ### Repetition (44_string.md R271) -/

/-- A run of at most `n` elements, with the states `post 0`, `post 1` and so on behind them, ends after `k` of them: at
the first state in which `stop` holds, or after the last element. -/
def EndsAfter (stop : State → Bool) (post : Nat → State) (n k : Nat) : Prop :=
  k ≤ n ∧ (∀ j, j + 1 < k → stop (post (j + 1)) = false) ∧ (k < n → 0 < k ∧ stop (post k) = true)

section
variable {element : State → State} {stop : State → Bool} {post : Nat → State}

theorem repeatElements_endsAfter (hs : ∀ k, (element (post k)).countDown = post (k + 1)) (n : Nat) :
    ∃ k, EndsAfter stop post n k ∧ repeatElements element stop n (post 0) = post k := by
  induction n generalizing post with
  | zero => exact ⟨0, ⟨le_rfl, fun j hj => by omega, fun h => by omega⟩, rfl⟩
  | succ n ih =>
    simp only [repeatElements, hs 0]
    by_cases hstop : stop (post 1) = true
    · rw [if_pos hstop]
      exact ⟨1, ⟨by omega, fun j hj => by omega, fun _ => ⟨Nat.one_pos, hstop⟩⟩, rfl⟩
    · obtain ⟨k, ⟨hle, hgo, hend⟩, hk⟩ := ih (post := fun k => post (k + 1)) fun k => hs (k + 1)
      rw [if_neg hstop]
      refine ⟨k + 1, ⟨by omega, ?_, fun hlt => ⟨Nat.succ_pos k, (hend (by omega)).2⟩⟩, hk⟩
      rintro (_ | j) hj
      · exact Bool.eq_false_of_not_eq_true hstop
      · exact hgo j (by omega)

/-- CX after an element of a string instruction that starts in `s`: counted down with the repeat latch only. -/
def State.counted (s u : State) : State := { u with cx := if 0 < s.repCnt then u.cx - 1 else u.cx }

/-- A string instruction runs through the states `post 0`, `post 1` and so on, if every element leads from one to the
next. -/
theorem State.runString_endsAfter {s : State} (h0 : post 0 = s)
    (hs : ∀ k, s.counted (element (post k)) = post (k + 1)) :
    ∃ k, EndsAfter stop post (elementCount s) k ∧ s.runString element stop = post k := by
  simp only [State.runString, State.repActive, elementCount, decide_eq_true_eq]
  simp only [State.counted] at hs
  by_cases hr : 0 < s.repCnt
  · simp only [if_pos hr] at hs ⊢
    rw [← h0]
    exact repeatElements_endsAfter hs _
  · simp only [if_neg hr] at hs ⊢
    exact ⟨1, ⟨le_rfl, fun j hj => by omega, fun h => by omega⟩, by rw [← hs 0, h0]⟩

/-- Without a stop condition every element is processed. -/
theorem State.runString_neverStop {s : State} (h0 : post 0 = s)
    (hs : ∀ k, s.counted (element (post k)) = post (k + 1)) :
    s.runString element neverStop = post (elementCount s) := by
  obtain ⟨k, ⟨hle, -, hend⟩, hk⟩ := s.runString_endsAfter (stop := neverStop) h0 hs
  obtain rfl | hlt := hle.eq_or_lt
  · exact hk
  · exact absurd (hend hlt).2 Bool.false_ne_true

end

/-! ### Offsets, addresses and the count behind `k` elements -/

section
variable (s : State) (w : Width)

@[simp] theorem stepped_zero (x : Word) : stepped s w x 0 = x := by simp [stepped]

theorem stepped_succ (x : Word) (k : Nat) : stepped s w x (k + 1) = stepped s w x k + s.delta w := by
  have hk : BitVec.ofNat 16 ((k + 1) * w.bytes) = BitVec.ofNat 16 (k * w.bytes) + BitVec.ofNat 16 w.bytes := by
    rw [Nat.succ_mul, BitVec.ofNat_add]
  unfold stepped State.delta
  rw [hk]
  split
  · rw [← sub_sub, sub_eq_add_neg _ (BitVec.ofNat 16 w.bytes)]
  · rw [BitVec.add_assoc]

@[simp] theorem countLeft_zero : countLeft s 0 = s.cx := by simp [countLeft]

theorem countLeft_succ (k : Nat) :
    countLeft s (k + 1) = if 0 < s.repCnt then countLeft s k - 1 else countLeft s k := by
  unfold countLeft
  split
  · rw [BitVec.ofNat_add, ← sub_sub]
    rfl
  · rfl

theorem sourceAt_eq_phys (k : Nat) : sourceAt s w k = phys (s.ovr .ds) (stepped s w s.si k) := by
  rw [s.ovr_eq_segmentValue]; rfl

end

/-! ### MOVS, STOS and LODS (44_string.md R272 to R274) -/

section
variable (s : State) (w : Width) (k : Nat)

/-- The state behind `k` elements of MOVS. -/
def State.movsPost : State :=
  { s with mem := copied s w k, si := stepped s w s.si k, di := stepped s w s.di k, cx := countLeft s k }

theorem State.movsPost_zero : s.movsPost w 0 = s := by
  simp only [State.movsPost, stepped_zero, countLeft_zero, copied]

theorem State.movsPost_succ : s.counted ((s.movsPost w k).movsElement w) = s.movsPost w (k + 1) := by
  unfold State.movsPost
  rw [stepped_succ, stepped_succ, countLeft_succ, copied, sourceAt_eq_phys]
  rfl

/-- The state behind `k` elements of STOS. -/
def State.stosPost : State := { s with mem := filled s w k, di := stepped s w s.di k, cx := countLeft s k }

theorem State.stosPost_zero : s.stosPost w 0 = s := by
  simp only [State.stosPost, stepped_zero, countLeft_zero, filled]

theorem State.stosPost_succ : s.counted ((s.stosPost w k).stosElement w) = s.stosPost w (k + 1) := by
  unfold State.stosPost
  rw [stepped_succ, countLeft_succ, filled]
  rfl

/-- AX after a write of its part of width `w`: AL, or the whole (10_state.md R25, R26). -/
def accumulatorWith (w : Width) (ax : Word) (v : Nat) : Word :=
  match w with
  | .byte => mkWord (BitVec.ofNat 8 v) (hiByte ax)
  | .word => BitVec.ofNat 16 v

theorem State.setReg_zero (v : Nat) : s.setReg w 0 v = { s with ax := accumulatorWith w s.ax v } := by
  cases w <;> rfl

/-- A write of AL or AX leaves nothing of an earlier one. -/
theorem accumulatorWith_accumulatorWith (ax : Word) (u v : Nat) :
    accumulatorWith w (accumulatorWith w ax u) v = accumulatorWith w ax v := by
  cases w with
  | byte => exact congrArg (mkWord _) (hiByte_mkWord _ _)
  | word => rfl

/-- AX behind `k` elements of LODS: AL or AX holds the last of them (R274). -/
def loaded : Word := if k = 0 then s.ax else accumulatorWith w s.ax (s.mem.readW w (sourceAt s w (k - 1)))

theorem loaded_succ :
    loaded s w (k + 1) = accumulatorWith w (loaded s w k) (s.mem.readW w (sourceAt s w k)) := by
  cases k with
  | zero => rfl
  | succ k => exact (accumulatorWith_accumulatorWith ..).symm

/-- The state behind `k` elements of LODS. -/
def State.lodsPost : State := { s with ax := loaded s w k, si := stepped s w s.si k, cx := countLeft s k }

theorem State.lodsPost_eq_setReg : s.lodsPost w k =
    { (if k = 0 then s else s.setReg w 0 (s.mem.readW w (sourceAt s w (k - 1)))) with
      si := stepped s w s.si k, cx := countLeft s k } := by
  unfold State.lodsPost loaded
  split
  · rfl
  · rw [State.setReg_zero]

theorem State.lodsPost_zero : s.lodsPost w 0 = s := by
  simp only [State.lodsPost, loaded, if_true, stepped_zero, countLeft_zero]

theorem State.lodsPost_succ : s.counted ((s.lodsPost w k).lodsElement w) = s.lodsPost w (k + 1) := by
  rw [State.lodsElement, State.setReg_zero]
  unfold State.lodsPost
  rw [loaded_succ, stepped_succ, countLeft_succ, sourceAt_eq_phys]
  rfl

end

/-- Settles O43: each of the three runs through its states to the one behind the last element. -/
theorem stringMoves : Obligations.StringMoves := by
  intro s b ht w n
  refine ⟨fun hw => ?_, fun hw => ?_, fun hw => ?_⟩ <;> obtain ⟨ho, -⟩ := both hw
  · refine runTable_advance ht hw rfl (range_of_in ho rfl) rfl rfl ?_ rfl
    rw [Head.width_eq_bit0 ho (by decide)]
    exact State.runString_neverStop (s.movsPost_zero w) (s.movsPost_succ w)
  · refine runTable_advance ht hw rfl (range_of_in ho rfl) rfl rfl ?_ rfl
    rw [Head.width_eq_bit0 ho (by decide)]
    exact State.runString_neverStop (s.stosPost_zero w) (s.stosPost_succ w)
  · rw [← State.lodsPost_eq_setReg]
    refine runTable_advance ht hw rfl (range_of_in ho rfl) rfl rfl ?_ rfl
    rw [Head.width_eq_bit0 ho (by decide)]
    exact State.runString_neverStop (s.lodsPost_zero w) (s.lodsPost_succ w)

/-! ### CMPS and SCAS (44_string.md R275, R276) -/

/-- The flags of a comparison of width `w` (R275). -/
def comparisonFlags (w : Width) (p : Nat × Nat) (f : Flags) : Flags :=
  szp w (((p.1 : Int) - p.2) % 2 ^ w.bits).toNat
    { f with
      cf := decide (p.1 < p.2)
      af := decide (p.1 % 16 < p.2 % 16)
      of := signedOverflow w (signedOf w p.1 - signedOf w p.2) }

section
variable {s : State} {w : Width} {a b k : Nat} {pair : Nat → Nat × Nat}

theorem arithFlags_cmp (ha : a < 2 ^ w.bits) (f : Flags) :
    arithFlags .cmp w a b f = comparisonFlags w (a, b) f := by
  have hcf : decide (exact .cmp a b f.cf.toNat < 0 ∨ 2 ^ w.bits ≤ exact .cmp a b f.cf.toNat) = decide (a < b) := by
    rw [decide_eq_decide]
    simp only [exact]
    zify at ha
    omega
  have haf : decide (exact .cmp (a % 16 : Nat) (b % 16 : Nat) f.cf.toNat < 0 ∨
      16 ≤ exact .cmp (a % 16 : Nat) (b % 16 : Nat) f.cf.toNat) = decide (a % 16 < b % 16) := by
    rw [decide_eq_decide]
    simp only [exact]
    omega
  simp only [arithFlags, comparisonFlags, hcf, haf]
  rfl

theorem AluOp.flags_cmp (ha : a < 2 ^ w.bits) (hb : b < 2 ^ w.bits) (f : Flags) :
    AluOp.cmp.flags tRef w policySzpArith a b f = comparisonFlags w (a, b) f :=
  (AluOp.flags_eq_arithFlags (op := .cmp) (by simp [arithOps]) ha hb f).trans (arithFlags_cmp ha f)

/-- ZF says that the compared values are equal. -/
theorem comparisonFlags_zf {p : Nat × Nat} (ha : p.1 < 2 ^ w.bits) (hb : p.2 < 2 ^ w.bits) (f : Flags) :
    (comparisonFlags w p f).zf = decide (p.1 = p.2) := by
  show decide ((((p.1 : Int) - p.2) % 2 ^ w.bits).toNat = 0) = decide (p.1 = p.2)
  rw [decide_eq_decide]
  cases w <;> simp only [Width.bits] at ha hb ⊢ <;> omega

theorem comparedFlags_succ : comparedFlags s w pair (k + 1) = comparisonFlags w (pair k) s.flags := rfl

/-- A comparison leaves nothing of the flags of an earlier one. -/
theorem comparisonFlags_comparedFlags (p : Nat × Nat) :
    comparisonFlags w p (comparedFlags s w pair k) = comparisonFlags w p s.flags := by
  cases k <;> rfl

theorem State.compare_comparedFlags {t : State} (ht : t.tables = tRef)
    (hp : (pair k).1 < 2 ^ w.bits ∧ (pair k).2 < 2 ^ w.bits) (hf : t.flags = comparedFlags s w pair k) :
    t.compare w (pair k).1 (pair k).2 = { t with flags := comparedFlags s w pair (k + 1) } := by
  rw [State.compare, ht, hf, AluOp.flags_cmp hp.1 hp.2, comparisonFlags_comparedFlags, comparedFlags_succ]

/-- A repetition ends as R271 says when ZF after an element says that its pair is equal. -/
theorem comparisonEnds_of_endsAfter {post : Nat → State} {k : Nat} (he : EndsAfter stopOnZf post (elementCount s) k)
    (hm : ∀ j, (post j).repMode = s.repMode) (hf : ∀ j, (post j).flags = comparedFlags s w pair j)
    (hp : ∀ j, (pair j).1 < 2 ^ w.bits ∧ (pair j).2 < 2 ^ w.bits) : comparisonEnds s pair k := by
  have hstop : ∀ j, stopOnZf (post (j + 1)) = !goesOn s (pair j) := fun j => by
    rw [stopOnZf, hm, hf, comparedFlags_succ, comparisonFlags_zf (hp j).1 (hp j).2]
    rfl
  obtain ⟨hle, hgo, hend⟩ := he
  refine ⟨hle, fun j hj => by simpa [hstop] using hgo j hj, fun hlt => ?_⟩
  obtain ⟨hpos, hk⟩ := hend hlt
  obtain ⟨j, rfl⟩ := Nat.exists_eq_succ_of_ne_zero hpos.ne'
  exact ⟨hpos, by simpa [hstop] using hk⟩

end

section
variable (s : State) (w : Width) (k : Nat)

theorem cmpsPair_lt : (cmpsPair s w k).1 < 2 ^ w.bits ∧ (cmpsPair s w k).2 < 2 ^ w.bits :=
  ⟨s.readOp_lt w (.mem 0 _), s.readOp_lt w (.mem 0 _)⟩

theorem scasPair_lt : (scasPair s w k).1 < 2 ^ w.bits ∧ (scasPair s w k).2 < 2 ^ w.bits :=
  ⟨s.reg_lt w 0, s.readOp_lt w (.mem 0 _)⟩

/-- The state behind `k` elements of CMPS. -/
def State.cmpsPost : State :=
  { s with
    si := stepped s w s.si k, di := stepped s w s.di k, cx := countLeft s k
    flags := comparedFlags s w (cmpsPair s w) k }

theorem State.cmpsPost_zero : s.cmpsPost w 0 = s := by
  simp only [State.cmpsPost, stepped_zero, countLeft_zero, comparedFlags, if_true]

/-- The state behind `k` elements of SCAS. -/
def State.scasPost : State :=
  { s with di := stepped s w s.di k, cx := countLeft s k, flags := comparedFlags s w (scasPair s w) k }

theorem State.scasPost_zero : s.scasPost w 0 = s := by
  simp only [State.scasPost, stepped_zero, countLeft_zero, comparedFlags, if_true]

variable {s} (ht : s.tables = tRef)
include ht

theorem State.cmpsPost_succ : s.counted ((s.cmpsPost w k).cmpsElement w) = s.cmpsPost w (k + 1) := by
  have hcompare : (s.cmpsPost w k).compare w (s.mem.readW w (sourceAt s w k)) (s.mem.readW w (destAt s w k)) =
      { s.cmpsPost w k with flags := comparedFlags s w (cmpsPair s w) (k + 1) } :=
    State.compare_comparedFlags (t := s.cmpsPost w k) (pair := cmpsPair s w) ht (cmpsPair_lt s w k) rfl
  rw [sourceAt_eq_phys] at hcompare
  refine (congrArg (fun u : State => s.counted ((u.stepSi w).stepDi w)) hcompare).trans ?_
  unfold State.cmpsPost
  rw [stepped_succ, stepped_succ, countLeft_succ]
  rfl

theorem State.scasPost_succ : s.counted ((s.scasPost w k).scasElement w) = s.scasPost w (k + 1) := by
  have hcompare : (s.scasPost w k).compare w (s.reg w 0) (s.mem.readW w (destAt s w k)) =
      { s.scasPost w k with flags := comparedFlags s w (scasPair s w) (k + 1) } :=
    State.compare_comparedFlags (t := s.scasPost w k) (pair := scasPair s w) ht (scasPair_lt s w k) rfl
  refine (congrArg (fun u : State => s.counted (u.stepDi w)) hcompare).trans ?_
  unfold State.scasPost
  rw [stepped_succ, countLeft_succ]
  rfl

end

/-- Settles O44: ZF behind an element says whether its pair is equal, so the run ends where `comparisonEnds` says. -/
theorem stringComparisons : Obligations.StringComparisons := by
  intro s b ht w
  refine ⟨fun hw => ?_, fun hw => ?_⟩ <;> obtain ⟨ho, -⟩ := both hw
  · obtain ⟨k, he, hk⟩ := State.runString_endsAfter (element := fun t => t.cmpsElement w) (stop := stopOnZf)
      (s.cmpsPost_zero w) fun k => State.cmpsPost_succ w k ht
    refine ⟨k, comparisonEnds_of_endsAfter he (fun _ => rfl) (fun _ => rfl) (cmpsPair_lt s w), ?_⟩
    refine run_advance ht hw rfl rfl rfl ?_ rfl
    rw [Head.width_eq_bit0 ho (by decide)]
    exact hk
  · obtain ⟨k, he, hk⟩ := State.runString_endsAfter (element := fun t => t.scasElement w) (stop := stopOnZf)
      (s.scasPost_zero w) fun k => State.scasPost_succ w k ht
    refine ⟨k, comparisonEnds_of_endsAfter he (fun _ => rfl) (fun _ => rfl) (scasPair_lt s w), ?_⟩
    refine run_advance ht hw rfl rfl rfl ?_ rfl
    rw [Head.width_eq_bit0 ho (by decide)]
    exact hk

/-! ### Memory (44_string.md R271 to R276) -/

/-- A byte outside the first `n` destination elements is unchanged, when memory `k + 1` comes from memory `k` by a store
to element `k`. -/
theorem read_of_outside_destElements {s : State} {w : Width} {m : Nat → Memory} {a n : Nat} (h0 : m 0 = s.mem)
    (hs : ∀ k, ∃ v, m (k + 1) = (m k).writeW w (destAt s w k) v)
    (ha : ∀ k, k < n → a < destAt s w k ∨ destAt s w k + w.bytes ≤ a) : (m n).read a = s.mem.read a := by
  induction n with
  | zero => rw [h0]
  | succ n ih =>
    obtain ⟨v, hv⟩ := hs n
    rw [hv, Memory.read_writeW_outside _ _ (ha n n.lt_succ_self), ih fun k hk => ha k (by omega)]

/-- Settles O59: MOVS and STOS by the memory of O43, the other three because they store nothing. -/
theorem stringStoresKeepOtherBytes : Obligations.StringStoresKeepOtherBytes := by
  intro b s t a ht i hi hw he ha
  obtain ⟨hmovs, hstos, -⟩ := stringMoves s b ht
  simp only [List.mem_cons, List.not_mem_nil, or_false] at hi
  rcases hi with rfl | rfl | rfl | rfl | rfl
  · cases (hmovs hw).symm.trans he
    exact read_of_outside_destElements (m := copied s _) rfl (fun _ => ⟨_, rfl⟩) ha
  · cases (hstos hw).symm.trans he
    exact read_of_outside_destElements (m := filled s _) rfl (fun _ => ⟨_, rfl⟩) ha
  all_goals exact exec_keepsByte _ s a ht hw rfl rfl nofun t he

end Sys2Proof.Machine
end

section
/-! The stack instructions (45_stack.md R290 to R298): O45, O46, and the bytes that pushes leave alone (60_exceptions.md
R360): O58. -/

namespace Sys2Proof.Machine

open Sys2Proof.Laws Sys2Proof.Spec

/-! ### The pushes -/

/-- PUSH SP is the push of the new SP, so the two handlers differ in the word alone (45_stack.md R291, R293). -/
theorem State.ite_pushSp_push (s : State) (c : Prop) [Decidable c] (v : Word) :
    (if c then s.pushSp else s.push v) = s.push (if c then s.sp - 2 else v) :=
  (apply_ite s.push c (s.sp - 2) v).symm

/-- The operand is a register exactly when the addressing form names it. -/
theorem operand_eq_reg_iff (s : State) (ea : RM) (n : BitVec 3) : operand s ea = .reg n ↔ ea = .reg n := by
  cases ea <;> simp [operand, memAt]

/-- Settles O45: both forms of PUSH SP push the new SP, and every other push the word read before. -/
theorem pushes : Obligations.Pushes := by
  intro s b ht
  refine ⟨fun hw => ?_, fun r hw => ?_, fun m hw => ?_, ?_⟩
  · exact runTable_advance ht hw rfl (range_of_in (both hw).1 rfl) rfl rfl (s.ite_pushSp_push _ _) rfl
  · exact runTable_advance ht hw rfl (value_of_is (both hw).1 (by cases r <;> rfl)) rfl rfl rfl rfl
  · refine runRmTable_advance ht hw rfl (value_of_is (both hw).1 rfl) rfl rfl ?_ rfl
    simp only [operand_eq_reg_iff]
    exact congrArg Result.done (s.ite_pushSp_push _ _)
  · exact runTable_advance (i := .pushf ⟨0x9C, none⟩) ht rfl rfl rfl rfl rfl rfl rfl

/-! ### The pops -/

/-- Settles O46: the word is the one at the top of the stack, and SP is raised before the destination is written. -/
theorem pops : Obligations.Pops := by
  intro s b ht u
  rw [← s.top_eq_stackWord]
  refine ⟨fun hw => ?_, fun r hw => ?_, fun m hw => ?_, ?_⟩
  · exact runTable_advance ht hw rfl (range_of_in (both hw).1 rfl) rfl rfl rfl (State.setReg16_ip ..)
  · exact runTable_advance ht hw rfl (value_of_is (both (both hw).1).1 (by cases r <;> rfl)) rfl rfl rfl
      (State.setSreg_ip ..)
  · exact runRmTable_advance ht hw rfl (value_of_is (both hw).1 rfl) rfl rfl rfl (State.writeOp_ip ..)
  · exact runTable_advance (i := .popf ⟨0x9D, none⟩) ht rfl rfl rfl rfl rfl rfl rfl

/-! ### Memory -/

/-- The byte at `a` is in none of the `n` words below the top of the stack. -/
def OutsidePushed (s : State) (n a : Nat) : Prop :=
  ∀ k, 1 ≤ k → k ≤ n →
    a ≠ phys s.ss (s.sp - BitVec.ofNat 16 (2 * k)) ∧ a ≠ phys s.ss (s.sp - BitVec.ofNat 16 (2 * k)) + 1

section
variable {s : State} {a n : Nat}

/-- The word that is pushed is the first of those below the top. -/
theorem State.read_push_of_outside (ha : OutsidePushed s (n + 1) a) (v : Word) :
    (s.push v).mem.read a = s.mem.read a := by
  obtain ⟨hlow, hhigh⟩ := ha 1 le_rfl (by omega)
  exact Memory.read_writeWord_of_ne _ hlow hhigh v

/-- The words below the top after a push are the further ones of those below it before. -/
theorem OutsidePushed.push (ha : OutsidePushed s (n + 1) a) (v : Word) : OutsidePushed (s.push v) n a := by
  intro k _ hk
  have hsp : s.sp - 2 - BitVec.ofNat 16 (2 * k) = s.sp - BitVec.ofNat 16 (2 * (k + 1)) := by
    rw [Nat.mul_succ, BitVec.ofNat_add]
    bv_omega
  rw [State.push_ss, State.push_sp, hsp]
  exact ha (k + 1) (by omega) (by omega)

/-- Pushes one after another keep every byte but those of their words (45_stack.md R290). -/
theorem State.read_pushes (vs : List Word) (ha : OutsidePushed s vs.length a) :
    (vs.foldl State.push s).mem.read a = s.mem.read a := by
  induction vs generalizing s with
  | nil => rfl
  | cons v vs ih => exact (ih (ha.push v)).trans (State.read_push_of_outside ha v)

theorem State.read_push (ha : OutsidePushed s 1 a) (v : Word) : (s.push v).mem.read a = s.mem.read a :=
  State.read_pushes [v] ha

theorem State.read_push_push (ha : OutsidePushed s 2 a) (v₁ v₂ : Word) :
    ((s.push v₁).push v₂).mem.read a = s.mem.read a := State.read_pushes [v₁, v₂] ha

/-- A delivery pushes the flags, CS and the return offset, and stores nothing else (60_exceptions.md R360). -/
theorem State.read_deliver (ha : OutsidePushed s 3 a) (vector : Byte) (ret : Word) :
    (s.deliver vector ret).mem.read a = s.mem.read a := State.read_pushes [s.flags.word, s.cs, ret] ha

/-- An instruction keeps the bytes outside the words it pushes, if it pushes any (45_stack.md R290; 60_exceptions.md
R360). -/
theorem exec_keepsByte_of_pushes (i : Instr) (hp : 0 < pushCount i s) (ha : OutsidePushed s (pushCount i s) a) :
    KeepsView (fun t => t.mem.read a) s (exec i s) := by
  cases i with
  | pushReg h =>
    refine runTable_keepsByte (Result.keepsView_done ?_)
    rw [s.ite_pushSp_push]
    exact State.read_push ha _
  | pushRm h =>
    refine runRmTable_keepsByte fun o _ _ => Result.keepsView_done ?_
    rw [s.ite_pushSp_push]
    exact State.read_push ha _
  | pushSreg h r | pushf h => exact runTable_keepsByte (Result.keepsView_done (State.read_push ha _))
  | callRel h rel => exact runTable_keepsByte (Result.keepsView_jump (State.read_push ha _))
  | callRm h => exact runRmTable_keepsByte fun _ _ _ => Result.keepsView_jump (State.read_push ha _)
  | callFar h off seg => exact runTable_keepsByte (Result.keepsView_jump (State.read_push_push ha _ _))
  | callFarRm h =>
    exact runRmTable_keepsByte fun _ _ _ => Result.keepsView_withMemory fun _ _ =>
      Result.keepsView_jump (State.read_push_push ha _ _)
  | int3 h => exact runTable_keepsByte (Result.keepsView_jump (State.read_deliver ha _ _))
  | int h vector =>
    refine runTable_keepsByte ?_
    split
    · exact Result.keepsView_raise _ _ _
    · exact Result.keepsView_jump (State.read_deliver ha _ _)
  | into h =>
    have hof : s.flags.of = true := by
      by_contra hof
      simp [pushCount, hof] at hp
    rw [pushCount, if_pos hof] at ha
    rw [exec, execInto, if_pos hof]
    exact runTable_keepsByte (Result.keepsView_jump (State.read_deliver ha _ _))
  | _ => exact absurd hp (Nat.lt_irrefl 0)

end

/-- Settles O58, instruction by instruction; it holds under any tables and of ill-formed instructions too. -/
theorem pushesKeepOtherBytes : Obligations.PushesKeepOtherBytes :=
  fun i _ t _ _ _ he hp ha => exec_keepsByte_of_pushes i hp ha t he

end Sys2Proof.Machine
end

section
/-! The flag instructions (46_flag_ops.md R310 to R318): O49. -/

namespace Sys2Proof.Machine

open Sys2Proof.Laws Sys2Proof.Spec

section
variable {i : Instr} {op : Byte} {c k : Nat} {x : Window} {s t : State}

/-- An instruction of one byte whose handler leaves `t`, and IP to the advance: its decoding, its row of the opcode map,
its length and its pass (30_encoding.md R112, R113). -/
theorem oneByte_advance (ht : s.tables = tRef) (hx : x.b0 = op) (hw : i.wellFormed = true) (he : encode i = [op])
    (hh : i.head = ⟨op, none⟩) (hr : isReserved i = false) (hm : mapped op c k) (hp : flagPolicy op.toNat = 0)
    (hrun : exec i s = runTable ⟨op, none⟩ s (.done t)) (hip : t.ip = s.ip) :
    decode tRef x = i ∧ mapped op c k ∧ (encode i).length = 1 ∧ exec i s = .next (advance i t) :=
  ⟨decode_of_opcode hw he hx, hm, congrArg List.length he, hrun.trans (runTable_advance ht hw hr hp hh rfl rfl hip)⟩

end

/-- LAHF puts the low half of the flags word into AH and keeps AL (46_flag_ops.md R317). -/
theorem State.setAh_lowByte (s : State) :
    s.setAh s.flags.lowByte = { s with ax := s.flags.word.setWidth 8 ++ s.ax.setWidth 8 } := by
  have hlow : s.flags.lowByte = s.flags.word.setWidth 8 :=
    (loByte_mkWord _ _).symm.trans (BitVec.setWidth_eq_extractLsb' (by decide)).symm
  rw [← hlow, ← s.al_eq_setWidth]
  rfl

/-- Bit `k` of AH is bit `8 + k` of AX (10_state.md R25). -/
theorem State.ah_getLsbD (s : State) {k : Nat} (hk : k < 8) : s.ah.getLsbD k = s.ax.getLsbD (8 + k) := by
  simp [State.ah, hiByte, hk]

/-- SAHF loads the five flags of the low half from AH (46_flag_ops.md R318). -/
theorem Flags.loadLow_ah (f : Flags) (s : State) :
    f.loadLow s.ah = { f with
      cf := s.ax.getLsbD 8, pf := s.ax.getLsbD 10, af := s.ax.getLsbD 12, zf := s.ax.getLsbD 14
      sf := s.ax.getLsbD 15 } := by
  simp only [Flags.loadLow, State.ah_getLsbD, Nat.reduceLT, Nat.reduceAdd]

/-- Settles O49: LAHF by the low half of the flags word, SAHF by the bits of AH, the others by the cell their handler
writes. -/
theorem flagInstructions : Obligations.FlagInstructions := by
  intro s x ht
  refine ⟨fun hx => ?clc, fun hx => ?stc, fun hx => ?cli, fun hx => ?sti, fun hx => ?cld, fun hx => ?std,
    fun hx => ?cmc, fun hx => ?lahf, fun hx => ?sahf⟩
  case lahf =>
    refine oneByte_advance ht hx rfl rfl rfl rfl ⟨rfl, rfl⟩ rfl ?_ rfl
    rw [← s.setAh_lowByte]
    rfl
  case sahf =>
    refine oneByte_advance ht hx rfl rfl rfl rfl ⟨rfl, rfl⟩ rfl ?_ rfl
    rw [← s.flags.loadLow_ah s]
    rfl
  case clc | stc | cli | sti | cld | std | cmc =>
    exact oneByte_advance ht hx rfl rfl rfl rfl ⟨rfl, rfl⟩ rfl rfl rfl

end Sys2Proof.Machine
end

section
/-! The I/O stubs, the prefixes, the software interrupts, HLT and the reserved encodings (47_io_prefix_int_halt.md R320
to R332): O47, O50, O51, O52. -/

namespace Sys2Proof.Machine

open Sys2Proof.Laws Sys2Proof.Spec

section
variable {i : Instr} {h : Head} {op : Byte} {s t : State}

/-- Under `T_REF` the resolver has an operand for every well-formed ModRM byte, so the handler runs
(30_encoding.md R100). -/
theorem run_of_wellFormed (ht : s.tables = tRef) (hw : i.wellFormed = true) (hh : i.head = h) (r : Result) :
    run h s r = finish h s r := by
  cases hm : h.modrm with
  | none => exact run_noModRM hm s r
  | some m => simp only [run, State.resolve, hm, resolveRm_tRef ht (ea_wellFormed hw hh hm)]

/-- A well-formed instruction whose handler faults whatever its operand. -/
theorem run_raise_faulted (ht : s.tables = tRef) (hw : i.wellFormed = true) (hh : i.head = h) (k : FaultKind)
    (q : Option FaultReason) (v : Option Byte) : run h s (.raise k q v) = .next (faulted i s k q v) := by
  rw [run_of_wellFormed ht hw hh, finish_raise_faulted hh]

/-- The pass of an instruction of one byte whose handler leaves `t`, and IP to the advance (30_encoding.md R113). -/
theorem runTable_oneByte (ht : s.tables = tRef) (hp : flagPolicy op.toNat = 0) (hlen : instLen tRef ⟨op, none⟩ = 1) :
    runTable ⟨op, none⟩ s (.done t) = .next (jumped { t with ip := s.ip + 1 }) := by
  rw [runTable_tRef ht hp rfl, finish, State.nextIp, ht, hlen]
  rfl

/-- The vector table has four bytes for each vector (60_exceptions.md R360). -/
theorem State.deliver_eq_delivered (s : State) (vector : Byte) (ret : Word) :
    s.deliver vector ret = delivered s vector ret := by
  simp only [delivered, Nat.mul_comm 4]
  rfl

/-- The pass of a software interrupt that delivers its vector: the return offset is behind its encoded bytes. -/
theorem finish_deliver (ht : s.tables = tRef) (hw : i.wellFormed = true) (hr : isReserved i = false) (hh : i.head = h)
    (vector : Byte) :
    finish h s (.jump (s.deliver vector (s.nextIp h))) = .next (jumped (delivered s vector (Spec.nextIp i s))) := by
  rw [State.nextIp_of_wellFormed ht hw hr hh, State.deliver_eq_delivered]
  rfl

end

/-! ### I/O stubs and reserved encodings -/

/-- Settles O52: the stubs and the reserved group members fault in their handler, which the resolver lets run; the other
reserved encodings fault without a resolver. -/
theorem stubsAndReservedEncodingsFault : Obligations.StubsAndReservedEncodingsFault := by
  intro s h port ht
  simp only [List.forall_mem_cons]
  refine ⟨⟨?inImm, ?inDx, ?outImm, ?outDx, by simp⟩, ?opcode, ?wait, ?lock, ?esc, ?member, by simp⟩
  case inImm | inDx | outImm | outDx | member => exact fun hw => run_raise_faulted ht hw rfl _ _ _
  case opcode | wait | lock | esc => exact fun _ => finish_raise_faulted (h := h) rfl _ _ _

/-! ### Software interrupts -/

/-- Settles O47: INT n by whether its vector is a stub, INTO by OF. -/
theorem softwareInterrupts : Obligations.SoftwareInterrupts := by
  intro s ht
  refine ⟨?int3, fun n => ?int, ?into⟩
  case int3 =>
    exact (runTable_tRef ht rfl rfl _).trans (finish_deliver (i := .int3 ⟨0xCC, none⟩) ht rfl rfl rfl 3)
  case int =>
    refine (runTable_tRef (h := ⟨0xCD, none⟩) ht rfl rfl _).trans ?_
    split
    · exact finish_raise_faulted (h := ⟨0xCD, none⟩) rfl _ _ _
    · exact finish_deliver (i := .int ⟨0xCD, none⟩ n) ht rfl rfl rfl n
  case into =>
    refine (runTable_tRef (h := ⟨0xCE, none⟩) ht rfl rfl _).trans ?_
    split
    · exact finish_deliver (i := .into ⟨0xCE, none⟩) ht rfl rfl rfl 4
    · exact finish_done_advance ht rfl rfl rfl rfl

/-! ### Prefixes -/

/-- The fall of a counter at the end of the pass takes back that it was kept alive (47_io_prefix_int_halt.md R322,
R323). -/
theorem keepAlive_pred (n : Nat) : keepAlive n - 1 = n := by
  unfold keepAlive; split <;> omega

/-- The pass of a repeat prefix (47_io_prefix_int_halt.md R323, R324). -/
theorem runTable_latchRepeat {op : Byte} {s : State} (ht : s.tables = tRef) (hp : flagPolicy op.toNat = 0)
    (hlen : instLen tRef ⟨op, none⟩ = 1) (mode : RepMode) :
    runTable ⟨op, none⟩ s (.done (s.latchRepeat mode)) = .next
      { s with ip := s.ip + 1, repCnt := 1, repMode := mode, segCnt := s.segCnt, passes := s.passes + 1 } := by
  rw [runTable_oneByte ht hp hlen]
  simp only [jumped, State.latchRepeat, keepAlive_pred]

/-- Settles O50: each prefix sets its counter to 2, and the end of its own pass brings both to what they are for the
next. -/
theorem prefixesSetTheirLatch : Obligations.PrefixesSetTheirLatch := by
  intro s b r ht
  refine ⟨fun hw => ?_, runTable_latchRepeat ht rfl rfl .repnz, runTable_latchRepeat ht rfl rfl .repz⟩
  obtain rfl : b = sregOp r 0x26 := eq_of_beq (both hw).1
  refine (runTable_oneByte ht (by cases r <;> rfl) (by cases r <;> rfl)).trans ?_
  simp only [jumped, keepAlive_pred]

/-! ### HLT -/

/-- No number of steps leaves a terminal state (10_state.md R41). -/
theorem stateAfter_terminal {s : State} (hs : s.runState ≠ .running) (n : Nat) : stateAfter n s = s := by
  induction n with
  | zero => rfl
  | succ n ih => simp only [stateAfter, step_terminal hs, ih]

/-- Settles O51: the pass advances IP in the state that is already HALTED, which is terminal. -/
theorem hltHaltsForGood : Obligations.HltHaltsForGood := fun _ ht =>
  ⟨_, runTable_oneByte ht rfl rfl, rfl, stateAfter_terminal (by simp [jumped])⟩

end Sys2Proof.Machine
end

section
/-! The engine's own state over a pass (60_exceptions.md R351, R352, R366; 10_state.md R40 to R42): O10 and O56. -/

namespace Sys2Proof

/-! ### The opcode byte of a decoded instruction, under any tables -/

section
variable (h : Head) (sub : Nat)

theorem decodeJcc_head (rel : Byte) : (decodeJcc h rel).head = h := by
  unfold decodeJcc; split <;> rfl

theorem decodeAccImm_head (imm : Word) : (decodeAccImm h sub imm).head = h := by
  unfold decodeAccImm; split <;> rfl

theorem decodeRmImm_head (imm : Word) : (decodeRmImm h imm).head = h := by
  unfold decodeRmImm; split <;> rfl

theorem decodeRmReg_head : (decodeRmReg h sub).head = h := by
  unfold decodeRmReg; split <;> rfl

theorem decodeGroupFe_head : (decodeGroupFe h).head = h := by
  unfold decodeGroupFe; split <;> rfl

theorem decodeGroupF6_head (imm : Word) : (decodeGroupF6 h imm).head = h := by
  unfold decodeGroupF6; split <;> rfl

theorem decodeGroup8c_head : (decodeGroup8c h sub).head = h := by
  unfold decodeGroup8c
  split
  case h_1 | h_3 => split <;> rfl
  all_goals rfl

theorem decodeShift_head : (decodeShift h sub).head = h := by
  unfold decodeShift; split <;> rfl

theorem decodeFlagOp_head : (decodeFlagOp h sub).head = h := by
  unfold decodeFlagOp; split <;> rfl

theorem decodeSreg_head {f : SReg → Instr} (hf : ∀ r, (f r).head = h) : (decodeSreg h sub f).head = h := by
  unfold decodeSreg
  split
  case h_5 => rfl
  all_goals exact hf _

theorem decodePopSreg_head : (decodePopSreg h sub).head = h := by
  unfold decodePopSreg; split <;> rfl

theorem decodeMember_head {members : List Instr} (hm : members.Forall fun i => i.head = h) :
    (decodeMember h sub members).head = h := by
  rw [decodeMember, List.getD_eq_getElem?_getD]
  cases hi : members[sub]? with
  | none => rfl
  | some i => exact List.forall_iff_forall_mem.mp hm i (List.mem_of_getElem? hi)

theorem ite_head {p : Prop} [Decidable p] {i j : Instr} (hi : i.head = h) (hj : j.head = h) :
    (if p then i else j).head = h := by
  split
  · exact hi
  · exact hj

/-- A class with a handler makes an instruction of the head as it was read (30_encoding.md R119). -/
theorem decodeClass_head (x : Window) {cls : Nat} (hc : hasHandler cls = true) :
    (decodeClass h cls sub x).head = h := by
  match cls with
  | 0 => exact ite_head h (decodeJcc_head h _) rfl
  | 5 => exact ite_head h (decodeGroupFe_head h) rfl
  | 6 => exact ite_head h (decodeGroupF6_head h _) rfl
  | 7 => exact decodeAccImm_head h sub _
  | 8 => exact ite_head h (decodeRmImm_head h _) rfl
  | 9 => exact decodeRmReg_head h sub
  | 10 => exact decodeGroup8c_head h sub
  | 12 => exact decodeShift_head h sub
  | 20 => exact ite_head h rfl rfl
  | 25 | 27 => exact decodeSreg_head h sub fun _ => rfl
  | 26 => exact decodePopSreg_head h sub
  | 46 => exact decodeFlagOp_head h sub
  | 16 => exact decodeMember_head h sub (ite_head h rfl rfl)
  | 1 | 3 | 4 | 11 | 15 | 24 | 30 | 31 | 32 | 33 | 34 | 35 | 36 | 38 | 39 | 40 | 41 | 42 | 44 | 45 | 47 | 49 =>
    exact decodeMember_head h sub rfl
  | 2 | 18 | 21 | 22 | 23 | 28 | 29 | 37 => exact decodeMember_head h sub ⟨rfl, rfl⟩
  | 17 => exact decodeMember_head h sub ⟨rfl, rfl, rfl⟩
  | 13 | 14 => exact decodeMember_head h sub ⟨rfl, rfl, rfl, rfl⟩
  | 19 => exact decodeMember_head h sub ⟨rfl, rfl, rfl, rfl, rfl⟩
  | 43 | 48 => cases hc
  | n + 50 => cases hc

end

theorem decodeNoHandler_op (op : Byte) : (decodeNoHandler op).head.op = op := by
  unfold decodeNoHandler; split_ifs <;> rfl

/-- The opcode byte of a decoded instruction is `B0` (30_encoding.md R93). -/
theorem decode_op (T : Tables) (x : Window) : (decode T x).head.op = x.b0 := by
  unfold decode
  simp only
  split
  · next hc => rw [decodeClass_head _ _ x hc]; rfl
  · exact decodeNoHandler_op x.b0

end Sys2Proof

namespace Sys2Proof.Machine

/-! ### What a pass leaves -/

section
variable {i : Instr} {s t u : State}

/-- What the handler of a running engine may leave in `u`: the tables, the parameters, the pass count and the record as
they were, and the engine running, or halted by HLT. -/
structure EngineKept (i : Instr) (s u : State) : Prop where
  tables : u.tables = s.tables
  stubVectors : u.stubVectors = s.stubVectors
  stopAt : u.stopAt = s.stopAt
  passes : u.passes = s.passes
  faultRecord : u.faultRecord = s.faultRecord
  runState : u.runState = .running ∨ u.runState = .halted ∧ ∃ h, i = .hlt h

theorem EngineKept.withFlags (hu : EngineKept i s u) (f : Flags) : EngineKept i s { u with flags := f } :=
  ⟨hu.tables, hu.stubVectors, hu.stopAt, hu.passes, hu.faultRecord, hu.runState⟩

theorem EngineKept.runState_ne_faulted (hu : EngineKept i s u) : u.runState ≠ .faulted := by
  rcases hu.runState with hr | ⟨hr, -⟩ <;> simp [hr]

theorem Keeps.engineKept (hk : Keeps s u) (hrun : s.runState = .running) : EngineKept i s u :=
  ⟨hk.tables, hk.stubVectors, hk.stopAt, hk.passes, hk.faultRecord, .inl (hk.runState.trans hrun)⟩

theorem runTable_done_engineKept (h : Head) (hu : EngineKept i s u) :
    ∃ r, runTable h s (.done u) = finish h s r ∧ ∀ v, r = .done v ∨ r = .jump v → EngineKept i s v := by
  rcases run_cases h s (tablePolicy h s (.done u)) with ⟨hr, -⟩ | ⟨hr, -⟩
  · exact ⟨_, hr, fun _ hv => by rcases hv with hv | hv <;> cases hv⟩
  · refine ⟨_, hr, fun _ hv => ?_⟩
    rcases hv with hv | hv <;> cases hv
    exact hu.withFlags _

/-- Every instruction ends in a fault or in a state that keeps the engine's own: HLT alone writes the run state, and the
prefixes write their latches only. -/
theorem exec_engineKept (i : Instr) (hrun : s.runState = .running) :
    ∃ r, exec i s = finish i.head s r ∧ ∀ u, r = .done u ∨ r = .jump u → EngineKept i s u := by
  cases hw : writesEngine i with
  | false =>
    obtain ⟨r, hr, hk⟩ := exec_ends i s hw
    exact ⟨r, hr, fun u hu => (hk u hu).engineKept hrun⟩
  | true =>
    cases i with
    | seg h q => exact runTable_done_engineKept h ⟨rfl, rfl, rfl, rfl, rfl, .inl hrun⟩
    | repnz h => exact runTable_done_engineKept h ⟨rfl, rfl, rfl, rfl, rfl, .inl hrun⟩
    | repz h => exact runTable_done_engineKept h ⟨rfl, rfl, rfl, rfl, rfl, .inl hrun⟩
    | hlt h => exact runTable_done_engineKept h ⟨rfl, rfl, rfl, rfl, rfl, .inr ⟨rfl, h, rfl⟩⟩
    | _ => cases hw

/-- A pass of a running engine takes a fault in the state it started in, or ends in what its handler left. -/
theorem exec_raiseFault_or_endPass (hrun : s.runState = .running) (he : exec i s = .next t) :
    (∃ k q v, t = s.raiseFault i.head k q v) ∨
    (∃ u ip, EngineKept i s u ∧ t = State.endPass { u with ip := ip }) := by
  obtain ⟨r, hr, hk⟩ := exec_engineKept i hrun
  rw [hr] at he
  cases r with
  | done u => cases he; exact .inr ⟨u, _, hk u (.inl rfl), rfl⟩
  | jump u => cases he; exact .inr ⟨u, u.ip, hk u (.inr rfl), rfl⟩
  | raise k q v => cases he; exact .inl ⟨k, q, v, rfl⟩

end

/-- Settles O10: a pass that faults raises the fault in the state it started in, for the opcode byte it decoded. -/
theorem faultsArePrecise : Obligations.FaultsArePrecise := by
  intro s t hrun he hf
  cases hq : s.stopRequested with
  | true => rw [step_stop hrun hq] at he; cases he; cases hf
  | false =>
    rw [step_pass hrun hq] at he
    rcases exec_raiseFault_or_endPass hrun he with ⟨k, q, v, rfl⟩ | ⟨u, ip, hu, rfl⟩
    · exact ⟨_, rfl, by simp only [State.faultSite, decode_op]⟩
    · exact absurd hf hu.runState_ne_faulted

/-- Settles O56, by the two ends of a pass. -/
theorem engineStateKept : Obligations.EngineStateKept := by
  intro i s t he hrun
  rcases exec_raiseFault_or_endPass hrun he with ⟨k, q, v, rfl⟩ | ⟨u, ip, hu, rfl⟩
  · exact ⟨rfl, rfl, rfl, fun _ => rfl, fun hf => absurd rfl hf⟩
  · exact ⟨hu.tables, hu.stubVectors, hu.stopAt, fun hf => absurd hf hu.runState_ne_faulted,
      fun _ => ⟨congrArg (· + 1) hu.passes, hu.faultRecord, fun hn => (hu.runState.resolve_left hn).2⟩⟩

end Sys2Proof.Machine
end

section
/-! IRET after a delivery (60_exceptions.md R360, R365): O48. -/

namespace Sys2Proof.Machine

open Sys2Proof.Laws Sys2Proof.Spec

/-- A pushed word is the one at the top (45_stack.md R290). -/
theorem stackWord_push_zero (s : State) (v : Word) : stackWord (s.push v) 0 = v := by
  rw [← State.top_eq_stackWord]
  exact Memory.readWord_writeWord_self _ _ v

/-- The words on the stack lie one further below the top after a push, and are kept: an even distance of less than 2^16
bytes separates them from the pushed one, also where the offset wraps. -/
theorem stackWord_push_succ (s : State) (v : Word) {k : Nat} (hk : k < 0x7FFF) :
    stackWord (s.push v) (k + 1) = stackWord s k := by
  have hoff : s.sp - 2 + BitVec.ofNat 16 (2 * (k + 1)) = s.sp + BitVec.ofNat 16 (2 * k) := by bv_omega
  simp only [stackWord, State.push_ss, State.push_sp, State.push_mem, hoff, phys]
  exact Memory.readWord_writeWord_of_apart _ (by bv_omega) v

/-- IRET pops what a delivery pushed, in the reverse order (60_exceptions.md R360; 43_control_transfer.md R260). -/
theorem State.interruptReturn_deliver (s : State) (vector : Byte) (ret : Word) :
    (s.deliver vector ret).interruptReturn =
      { s.deliver vector ret with ip := ret, cs := s.cs, flags := s.flags, sp := s.sp } := by
  have hw (k : Nat) : stackWord (s.deliver vector ret) k =
      stackWord (((s.push s.flags.word).push s.cs).push ret) k := rfl
  have hret : stackWord (s.deliver vector ret) 0 = ret := by rw [hw, stackWord_push_zero]
  have hcs : stackWord (s.deliver vector ret) 1 = s.cs := by
    rw [hw, stackWord_push_succ _ _ (by decide), stackWord_push_zero]
  have hflags : stackWord (s.deliver vector ret) 2 = s.flags.word := by
    rw [hw, stackWord_push_succ _ _ (by decide), stackWord_push_succ _ _ (by decide), stackWord_push_zero]
  have hsp : (s.deliver vector ret).sp + 6 = s.sp := by
    change s.sp - 2 - 2 - 2 + 6 = s.sp
    bv_omega
  rw [State.interruptReturn_eq, hret, hcs, hflags, Flags.ofWord_word, hsp]

/-- Settles O48: a delivery writes IP, CS, SP and the flags, and IRET gives them back. -/
theorem iretUndoesADelivery : Obligations.IretUndoesADelivery := by
  intro s t vector ret ht he
  obtain rfl := Host.Outcome.next.inj
    (he.symm.trans (runTable_jumped 0xCF ht rfl (s.interruptReturn_deliver vector ret)))
  refine ⟨?_, ?_, ?_, State.reg16_congr ?_, ?_⟩ <;> simp [jumped, State.deliver]

end Sys2Proof.Machine
end

section
/-! The reset sequence and its table load (70_reset_and_hazards.md R390 to R395; 60_exceptions.md R358): O19. -/

namespace Sys2Proof.Machine

/-! ### When the load succeeds -/

section
variable {m : Memory} {size i j : Nat}

theorem loadSucceeds_iff : loadSucceeds size m = true ↔
    0xF012A ≤ size ∧ ∀ i < 20, 0xF0000 + tablePointer m i + tableLength i ≤ size := by
  simp [loadSucceeds]

theorem tableLength_le (i : Nat) : tableLength i ≤ 256 := by
  unfold tableLength; split_ifs <;> decide

/-- A pointer is 16 bits, so a table that it names ends below `MEM_SIZE` (70_reset_and_hazards.md R392). -/
theorem loadSucceeds_memSize (m : Memory) : loadSucceeds Config.memSize m = true := by
  refine loadSucceeds_iff.mpr ⟨by decide, fun i _ => ?_⟩
  have hp : tablePointer m i < 0x10000 := (m.readWord _).isLt
  have hl := tableLength_le i
  simp only [Config.memSize]
  omega

theorem loadSucceeds_eq_false
    (h : size < 0xF012A ∨ ∃ i < 20, size < 0xF0000 + tablePointer m i + tableLength i) :
    loadSucceeds size m = false := by
  refine Bool.eq_false_iff.mpr fun hs => ?_
  obtain ⟨hsize, htables⟩ := loadSucceeds_iff.mp hs
  rcases h with h | ⟨i, hi, h⟩
  · omega
  · have := htables i hi
    omega

/-! ### The reference image -/

theorem imagePointer_toNat : ∀ i < 15, (imagePointer i).toNat = 0x0200 + 0x100 * i := by decide

theorem imagePointer_toNat_cond : ∀ k < 5, (imagePointer (15 + k)).toNat = 0x1100 + 8 * k := by decide

/-- The pointers of the image stand at 0xF0102 to 0xF0129, the low byte first (70_reset_and_hazards.md R395). -/
theorem imageByte_pointer {a : Nat} (h₁ : 0xF0102 ≤ a) (h₂ : a < 0xF012A) : imageByte a =
    if (a - 0xF0102) % 2 = 0 then loByte (imagePointer ((a - 0xF0102) / 2))
    else hiByte (imagePointer ((a - 0xF0102) / 2)) := by
  rw [imageByte, if_neg (by omega), if_neg (by omega), if_neg (by omega), if_pos h₂]

theorem imageByte_pointer_low {a : Nat} (hi : i < 20) (ha : a = 0xF0102 + 2 * i) :
    imageByte a = loByte (imagePointer i) := by
  rw [imageByte_pointer (by omega) (by omega), if_pos (by omega), show (a - 0xF0102) / 2 = i by omega]

theorem imageByte_pointer_high {a : Nat} (hi : i < 20) (ha : a = 0xF0103 + 2 * i) :
    imageByte a = hiByte (imagePointer i) := by
  rw [imageByte_pointer (by omega) (by omega), if_neg (by omega), show (a - 0xF0102) / 2 = i by omega]

/-- The bytes of a table of 256 entries of the image. -/
theorem imageByte_table (hi : i < 15) (hj : j < 256) :
    imageByte (0xF0000 + (0x0200 + 0x100 * i) + j) = (tRef.byIndex i)[j] := by
  have hn : (0xF0000 + (0x0200 + 0x100 * i) + j - 0xF0200) / 256 = i := by omega
  have hm : (0xF0000 + (0x0200 + 0x100 * i) + j - 0xF0200) % 2 ^ 8 = j := by omega
  rw [imageByte, if_neg (by omega), if_neg (by omega), if_neg (by omega), if_neg (by omega), if_neg (by omega),
    if_pos (by omega), hn]
  simp only [lookup, BitVec.toNat_ofNat, hm]

/-- The bytes of a conditional-jump table of the image. -/
theorem imageByte_condTable (hi : i < 4) (hj : j < 8) :
    imageByte (0xF0000 + (0x1100 + 8 * i) + j) = (tRef.condByIndex i)[j] := by
  have hn : (0xF0000 + (0x1100 + 8 * i) + j - 0xF1100) / 8 = i := by omega
  have hm : (0xF0000 + (0x1100 + 8 * i) + j - 0xF1100) % 2 ^ 3 = j := by omega
  rw [imageByte, if_neg (by omega), if_neg (by omega), if_neg (by omega), if_neg (by omega), if_neg (by omega),
    if_neg (by omega), if_pos (by omega), hn]
  simp only [lookup8, BitVec.toNat_ofNat, hm]

/-- The bytes of FLAGS_BITFIELDS in the image. -/
theorem imageByte_flagsBitfields (hj : j < 10) : imageByte (0xF0000 + 0x1120 + j) = tRef.flagsBitfields[j] := by
  rw [imageByte, if_neg (by omega), if_neg (by omega), if_neg (by omega), if_neg (by omega), if_neg (by omega),
    if_neg (by omega), if_neg (by omega), if_pos (by omega), show 0xF0000 + 0x1120 + j - 0xF1120 = j by omega]
  simp [List.getD_eq_getElem?_getD, hj]

/-! ### The load from the reference image -/

/-- Tables are the same when they agree by their indices (30_encoding.md R117). -/
theorem Tables.ext_byIndex {T U : Tables} (h : ∀ i < 15, T.byIndex i = U.byIndex i)
    (hc : ∀ i < 4, T.condByIndex i = U.condByIndex i) (hf : T.flagsBitfields = U.flagsBitfields) : T = U := by
  cases T
  cases U
  exact (Tables.mk.injEq ..).mpr ⟨h 0 (by decide), h 1 (by decide), h 2 (by decide), h 3 (by decide), h 4 (by decide),
    h 5 (by decide), h 6 (by decide), h 7 (by decide), h 8 (by decide), h 9 (by decide), h 10 (by decide),
    h 11 (by decide), h 12 (by decide), h 13 (by decide), h 14 (by decide), hc 0 (by decide), hc 1 (by decide),
    hc 2 (by decide), hc 3 (by decide), hf⟩

theorem byIndex_loadTables (hi : i < 15) : (loadTables m).byIndex i = loadTable m i := by
  interval_cases i <;> rfl

theorem condByIndex_loadTables (hi : i < 4) : (loadTables m).condByIndex i = loadCondTable m (15 + i) := by
  interval_cases i <;> rfl

section
variable (hm : ∀ a, 0xF0102 ≤ a → a < 0xF112A → m.read a = imageByte a)
include hm

theorem tablePointer_image (hi : i < 20) : tablePointer m i = (imagePointer i).toNat := by
  rw [tablePointer, Memory.readWord, hm _ (by omega) (by omega), hm _ (by omega) (by omega),
    imageByte_pointer_low hi (by omega), imageByte_pointer_high hi (by omega), mkWord_loByte_hiByte]

theorem loadTable_image (hi : i < 15) : loadTable m i = tRef.byIndex i := by
  ext j hj : 1
  rw [loadTable, Vector.getElem_ofFn, tablePointer_image hm (by omega), imagePointer_toNat i hi,
    hm _ (by omega) (by omega), imageByte_table hi hj]

theorem loadCondTable_image (hi : i < 4) : loadCondTable m (15 + i) = tRef.condByIndex i := by
  ext j hj : 1
  rw [loadCondTable, Vector.getElem_ofFn, tablePointer_image hm (by omega), imagePointer_toNat_cond i (by omega),
    hm _ (by omega) (by omega), imageByte_condTable hi hj]

/-- The reference image holds `T_REF` (70_reset_and_hazards.md R395). -/
theorem loadTables_image : loadTables m = tRef := by
  refine Tables.ext_byIndex (fun i hi => ?_) (fun i hi => ?_) (Vector.ext fun j hj => ?_)
  · rw [byIndex_loadTables hi, loadTable_image hm hi]
  · rw [condByIndex_loadTables hi, loadCondTable_image hm hi]
  · have hp : tablePointer m 19 = 0x1120 := tablePointer_image hm (by decide)
    rw [loadTables, Vector.getElem_ofFn, hp, hm _ (by omega) (by omega), imageByte_flagsBitfields hj]

end

end

/-- Settles O19: the image holds `T_REF`, and the load fails exactly where the memory ends before what it reads. -/
theorem resetSequence : Obligations.ResetSequence := by
  intro m stubs stopAt
  refine ⟨fun hm => ?image, fun size hsize => ?tooShort, ?memSize⟩
  case image => simp only [engineStart, loadSucceeds_memSize, if_true, loadTables_image hm]; rfl
  case tooShort => simp [engineStart, loadSucceeds_eq_false hsize]
  case memSize => simp only [engineStart, loadSucceeds_memSize, if_true]; rfl

end Sys2Proof.Machine
end
